-- ==== Sys2Proof/Word.lean ====
section
/-! DEFINITION. The word types of the SM4 engine (spec/00_scope.md R8, R9): bytes, 32-bit words, vectors of
four words, 16-byte sequences. Nothing here is signed (R8). -/

namespace Sys2Proof

/-- An unsigned 8-bit value (00 R8). -/
abbrev Byte := BitVec 8

/-- An unsigned 32-bit value; bit 31 is the most significant (00 R8). -/
abbrev Word := BitVec 32

/-- A 16-byte sequence `B[0..15]`, index 0 first in the byte stream (00 R9). -/
abbrev Bytes16 := Vector Byte 16

/-- A byte sequence of any length, the host layer's data (45, Notation). -/
abbrev Bytes := List Byte

/-- A 4-word vector: element 0 first (00 R12). The shape of `KEY`, `IV`, `DIN`, `DOUT`, `CHAIN`, `X` and
`CSAVE` (10 R20). -/
@[ext]
structure Quad where
  w0 : Word
  w1 : Word
  w2 : Word
  w3 : Word
deriving DecidableEq, Repr

end Sys2Proof
end

