-- ==== Sys2Proof/Syntax.lean ====
section
/-! DEFINITION. The commands of the engine, its "instructions" (spec/30_encoding.md R90, R93): one constructor
per row of spec/opcode_table.json. No command has an operand, a register number or an immediate (30 R92). -/

namespace Sys2Proof

/-- The eight commands (30 R93). -/
inductive Instr where
  /-- `NOP`, 0x0 (44 R170) -/
  | nop
  /-- `KEYEXP`, 0x1 (41 R130) -/
  | keyexp
  /-- `IVLOAD`, 0x2 (43 R150) -/
  | ivload
  /-- `ZERO`, 0x3 (44 R171) -/
  | zero
  /-- `ECB.ENC`, 0x8 (43 R151) -/
  | ecbEnc
  /-- `ECB.DEC`, 0x9 (43 R152) -/
  | ecbDec
  /-- `CBC.ENC`, 0xA (43 R153) -/
  | cbcEnc
  /-- `CBC.DEC`, 0xB (43 R154) -/
  | cbcDec
deriving DecidableEq, Repr

end Sys2Proof
end

