-- ==== Sys2Proof/WellFormed.lean ====
section
/-! DEFINITION. Well-formedness. A command has no operand (30 R92), so every `Instr` is well-formed; what can be
ill-formed is a command WORD: the format `CMD` of 30 R90 asks that bits 31:4 are zero and that bit 2 is zero
(in a block command by R90's second table; in the others because OP 01xx is reserved, R93). -/

namespace Sys2Proof

/-- Every command is well-formed: no operand field to check (30 R92). -/
def Instr.wellFormed : Instr → Bool
  | .nop => true
  | .keyexp => true
  | .ivload => true
  | .zero => true
  | .ecbEnc => true
  | .ecbDec => true
  | .cbcEnc => true
  | .cbcDec => true

/-- Field `ZERO28` (bits 31:4) "must be all zeros" (30 R90). -/
def zero28Ok (w : Word) : Bool := w.extractLsb' 4 28 == 0#28

/-- Bit 2 is zero: "must be 0 in a block command" (30 R90), and OP 01xx is reserved (30 R93). -/
def bit2Ok (w : Word) : Bool := !w.getLsbD 2

/-- A command word in the format of 30 R90. -/
def wordWellFormed (w : Word) : Bool := zero28Ok w && bit2Ok w

end Sys2Proof
end

