-- ==== Sys2Proof/Decode.lean ====
section
/-! DEFINITION. Decode and encode of command words (spec/30_encoding.md R91, R93, R96). The decoder is total:
"every one of the 2^32 values of `v` is either one of the eight commands or reserved". -/

namespace Sys2Proof

/-- What the decoder answers for a word that is no command. -/
inductive DecodeError where
  /-- A reserved encoding (30 R96): the CMD write is rejected with `E_OP` (60 R225). -/
  | reservedEncoding
deriving DecidableEq, Repr

/-- Decode of a written CMD value (30 R91 step 3, R93). -/
def decode (w : Word) : Except DecodeError Instr :=
  if w = 0x00000000#32 then .ok .nop
  else if w = 0x00000001#32 then .ok .keyexp
  else if w = 0x00000002#32 then .ok .ivload
  else if w = 0x00000003#32 then .ok .zero
  else if w = 0x00000008#32 then .ok .ecbEnc
  else if w = 0x00000009#32 then .ok .ecbDec
  else if w = 0x0000000A#32 then .ok .cbcEnc
  else if w = 0x0000000B#32 then .ok .cbcDec
  else .error .reservedEncoding

/-- The opcode field `OP` of a block command: `BLK`, a zero bit, `MODE` (1 = CBC), `DIR` (1 = decrypt) (30 R90). -/
def blockOp (mode dir : Bool) : BitVec 4 :=
  BitVec.ofBool true ++ BitVec.ofBool false ++ BitVec.ofBool mode ++ BitVec.ofBool dir

/-- The field `OP` of a command (30 R90, R93). -/
def opField : Instr → BitVec 4
  | .nop => 0b0000#4
  | .keyexp => 0b0001#4
  | .ivload => 0b0010#4
  | .zero => 0b0011#4
  | .ecbEnc => blockOp false false
  | .ecbDec => blockOp false true
  | .cbcEnc => blockOp true false
  | .cbcDec => blockOp true true

/-- The command word of a command: `ZERO28` above `OP` (30 R90). -/
def encode (i : Instr) : Word := 0#28 ++ opField i

/-- The command in an instruction of `nbits` bits numbered as spec/opcode_table.json numbers them. A command is
one 32-bit value, not a sequence of bytes (30 R97; 20 R63), so no byte order enters; bits above `nbits` are 0. -/
def decodeTableWord (nbits w : Nat) : Option Instr :=
  if nbits ≤ 32 then
    match decode (BitVec.ofNat 32 (w % 2 ^ nbits)) with
    | .ok i => some i
    | .error _ => none
  else none

end Sys2Proof
end

