-- ==== Sys2Proof/Machine/Primitives.lean ====
section
/-! DEFINITION. Bytes and words (spec/00_scope.md R9) and the round primitives (spec/40_primitives.md R110 to
R117): the S-box stage and the mixing unit. Pure functions: they read no state and write none. -/

namespace Sys2Proof.Machine

/-- Four bytes, the first most significant, as a word: the right side of `W[i]` in 00 R9. -/
def packWord (b0 b1 b2 b3 : Byte) : Word :=
  (b0.setWidth 32 <<< 24) ||| (b1.setWidth 32 <<< 16) ||| (b2.setWidth 32 <<< 8) ||| b3.setWidth 32

/-- Byte `j` of a word, `w[31-8j : 24-8j]`, for `j` in 0 to 3 (00 R9). -/
def wordByte (w : Word) (j : Nat) : Byte := (w >>> (24 - 8 * j)).setWidth 8

/-- Element `i` of a 4-word vector. -/
def quadGet (q : Quad) (i : Fin 4) : Word :=
  match i with
  | 0 => q.w0
  | 1 => q.w1
  | 2 => q.w2
  | 3 => q.w3

/-- A 4-word vector with element `i` replaced. -/
def quadSet (q : Quad) (i : Fin 4) (v : Word) : Quad :=
  match i with
  | 0 => { q with w0 := v }
  | 1 => { q with w1 := v }
  | 2 => { q with w2 := v }
  | 3 => { q with w3 := v }

/-- Exclusive-or word by word (00 R10). -/
def quadXor (a b : Quad) : Quad :=
  ⟨a.w0 ^^^ b.w0, a.w1 ^^^ b.w1, a.w2 ^^^ b.w2, a.w3 ^^^ b.w3⟩

/-- The elements in the opposite order, as the output of the block transform takes them (42 R141). -/
def quadReverse (q : Quad) : Quad := ⟨q.w3, q.w2, q.w1, q.w0⟩

/-- `words(B)`: four words by big-endian packing (00 R9; 20 R63). -/
def words (b : Bytes16) : Quad :=
  ⟨packWord b[0] b[1] b[2] b[3], packWord b[4] b[5] b[6] b[7],
   packWord b[8] b[9] b[10] b[11], packWord b[12] b[13] b[14] b[15]⟩

/-- `bytes(W)`: the inverse of `words` (00 R9). -/
def bytes (q : Quad) : Bytes16 :=
  #v[wordByte q.w0 0, wordByte q.w0 1, wordByte q.w0 2, wordByte q.w0 3,
     wordByte q.w1 0, wordByte q.w1 1, wordByte q.w1 2, wordByte q.w1 3,
     wordByte q.w2 0, wordByte q.w2 1, wordByte q.w2 2, wordByte q.w2 3,
     wordByte q.w3 0, wordByte q.w3 1, wordByte q.w3 2, wordByte q.w3 3]

/-- `rotl(w, n)`, the 32-bit circular left rotation, "with `w` unsigned so that `>>` brings in zeros" (40 R110).
The rule gives it for `n` in 1 to 31; no rule calls it with another amount (91 N12, log 13). -/
def rotl (w : Word) (n : Nat) : Word := (w <<< n) ||| (w >>> (32 - n))

/-- `Sbox(b) = SBOX[b]`, the index taken as unsigned (40 R112). -/
def sbox (b : Byte) : Byte := sboxTable b

/-- `tau(w)`, the source's `NonlinearSub`: each byte substituted in its own position (40 R113). -/
def tau (w : Word) : Word :=
  packWord (sbox (wordByte w 0)) (sbox (wordByte w 1)) (sbox (wordByte w 2)) (sbox (wordByte w 3))

/-- `L(w)`, the data-round linear transform (40 R114). -/
def lData (w : Word) : Word := w ^^^ rotl w 2 ^^^ rotl w 10 ^^^ rotl w 18 ^^^ rotl w 24

/-- `Lp(w)`, the key-expansion linear transform L' (40 R115). -/
def lKey (w : Word) : Word := w ^^^ rotl w 13 ^^^ rotl w 23

/-- `T(x) = L(tau(x))` (40 R116). -/
def tData (x : Word) : Word := lData (tau x)

/-- `Tp(x) = Lp(tau(x))` (40 R117). -/
def tKey (x : Word) : Word := lKey (tau x)

end Sys2Proof.Machine
end

