-- ==== Sys2Proof/Machine/State.lean ====
section
/-! DEFINITION. The state of the machine as plain data: the engine's elements (spec/10_state.md R20 to R36) and,
beside them, the outside world as data (pending bus events, what the host has read, who moves next). -/

namespace Sys2Proof.Machine

/-- `SEQ.phase` (10 R28). -/
inductive Phase where
  /-- no command in progress -/
  | idle
  /-- a `KEYEXP` is in progress -/
  | kexp
  /-- a block command is in progress -/
  | crypt
deriving DecidableEq, Repr

/-- The sequencer `SEQ = (phase, rnd, op)` (10 R28): what the engine does next. -/
structure Seq where
  phase : Phase
  /-- index of the next round, 0 to 31; it "never wraps and never exceeds 31" -/
  rnd : Fin 32
  /-- low two bits of the block command in progress: bit 1 = CBC, bit 0 = decrypt; `00` otherwise -/
  op : BitVec 2
deriving DecidableEq, Repr

/-- The two stored fields of `CTRL` (10 R31). -/
structure Ctrl where
  /-- done-interrupt enable, bit 0 -/
  die : Bool
  /-- error-interrupt enable, bit 1 -/
  eie : Bool
deriving DecidableEq, Repr

/-- The seven sticky error flags `STATUS[14:8]` (10 R32, R35; 60 R221). -/
structure ErrFlags where
  /-- `E_BUSY`, bit 8 (60 R224) -/
  busy : Bool
  /-- `E_OP`, bit 9 (60 R225) -/
  op : Bool
  /-- `E_KEYLEN`, bit 10 (60 R226) -/
  keyLen : Bool
  /-- `E_IVLEN`, bit 11 (60 R227) -/
  ivLen : Bool
  /-- `E_DLEN`, bit 12 (60 R228) -/
  dLen : Bool
  /-- `E_NOKEY`, bit 13 (60 R229) -/
  noKey : Bool
  /-- `E_NOIV`, bit 14 (60 R230) -/
  noIv : Bool
deriving DecidableEq, Repr

/-- The names of the error flags: the argument of `raise` (60 R221, R222). -/
inductive Err where
  | eBusy | eOp | eKeyLen | eIvLen | eDLen | eNoKey | eNoIv
deriving DecidableEq, Repr

/-- The complete state of the engine (10 R20: "Nothing else is state"). -/
@[ext]
structure Engine where
  /-- `CTRL` (10 R31) -/
  ctrl : Ctrl
  /-- `STATUS.DONE` (10 R32, R34) -/
  done : Bool
  /-- `STATUS.KEYVALID` (10 R32, R34) -/
  keyValid : Bool
  /-- `STATUS.IVVALID` (10 R32, R34) -/
  ivValid : Bool
  /-- `STATUS[14:8]` (10 R35) -/
  err : ErrFlags
  /-- `KEYW`, bit i = word i written (10 R25) -/
  keyw : BitVec 4
  /-- `IVW` (10 R25) -/
  ivw : BitVec 4
  /-- `DINW` (10 R25) -/
  dinw : BitVec 4
  /-- `KEY[0..3]` (10 R21) -/
  key : Quad
  /-- `IV[0..3]` (10 R22) -/
  iv : Quad
  /-- `DIN[0..3]` (10 R23) -/
  din : Quad
  /-- `DOUT[0..3]` (10 R24) -/
  dout : Quad
  /-- `RK[0..31]`, encryption order (10 R26) -/
  rk : Vector Word 32
  /-- `CHAIN[0..3]` (10 R27) -/
  chain : Quad
  /-- `SEQ` (10 R28) -/
  seq : Seq
  /-- `X[0..3]` (10 R29) -/
  x : Quad
  /-- `CSAVE[0..3]` (10 R30) -/
  csave : Quad
deriving DecidableEq, Repr

/-- What reaches the engine from outside, one atomic action each (00 R11; 20 R65; 70 R260). A read or write names
a byte offset in the window and a size in bytes, so that the accesses the spec gives no meaning (20 R64) can be
written down, and refused. -/
inductive BusEvent where
  /-- `RegRead(off)`; the value read is appended to the read log (30 R98) -/
  | read (off bytes : Nat)
  /-- `RegWrite(off, v)` -/
  | write (off bytes : Nat) (v : Word)
  /-- the host script's `wait`: read `STATUS`, unlogged, until BUSY = 0 (30 R100) -/
  | poll
  /-- the host observes the `irq` output (00 R11) -/
  | observeIrq
  /-- the environment applies the `reset` input (70 R260) -/
  | reset
deriving DecidableEq, Repr

/-- Why the machine stops with a fault: it never does. The engine has no traps (60 R220), its steps never fail,
and no state of it is stuck, so the type has no constructor. Log 6. -/
inductive Fault where
deriving DecidableEq, Repr

/-- Why a step has no meaning. -/
inductive Refusal where
  /-- Raised by an arm of `exec` for a command that has no meaning yet (none is left). Safe. -/
  | notModelled (mnemonic : String)
  /-- Raised by a bus event that is no action of the interface: not 32 bits wide, or at an offset that is not a
  multiple of 4 (20 R64: "a model must refuse it"; 93 U1). Safe. -/
  | notAnAccess
  /-- Raised by a bus event outside the 256-byte window: "not the engine's" (20 R66; 93 U12). Safe. -/
  | outsideWindow
deriving DecidableEq, Repr

/-- The machine: the engine, and the outside world as plain data (log 1, log 2). -/
@[ext]
structure State where
  /-- the engine's elements (10 R20) -/
  engine : Engine
  /-- MODEL'S OWN: bus events still to come, in the one total order of 20 R67 -/
  pending : List BusEvent
  /-- MODEL'S OWN: the host script's read log (30 R98), oldest first -/
  readLog : List Word
  /-- MODEL'S OWN: the levels of `irq` the host has observed (00 R11), oldest first -/
  irqLog : List Bool
  /-- MODEL'S OWN: host actions still to come before the next engine step; `none`: not drawn yet -/
  budget : Option Nat
  /-- MODEL'S OWN: moves made so far, the argument of the free value `Config.hostActionsBefore` -/
  ticks : Nat
deriving DecidableEq, Repr

/-- `(0, 0, 0, 0)`. -/
def quadZero : Quad := ⟨0#32, 0#32, 0#32, 0#32⟩

/-- `SEQ = (IDLE, 0, 00)` (10 R28). -/
def seqIdle : Seq := ⟨.idle, 0, 0b00#2⟩

/-- The engine after reset: the table of 10 R39; "No element is left unspecified". -/
def Engine.reset : Engine where
  ctrl := ⟨false, false⟩
  done := false
  keyValid := false
  ivValid := false
  err := ⟨false, false, false, false, false, false, false⟩
  keyw := 0b0000#4
  ivw := 0b0000#4
  dinw := 0b0000#4
  key := quadZero
  iv := quadZero
  din := quadZero
  dout := quadZero
  rk := Vector.replicate 32 0#32
  chain := quadZero
  seq := seqIdle
  x := quadZero
  csave := quadZero

/-- The machine right after reset (70 R260): the engine as the spec says, nothing pending, nothing read (log 2). -/
def State.reset : State where
  engine := Engine.reset
  pending := []
  readLog := []
  irqLog := []
  budget := none
  ticks := 0

end Sys2Proof.Machine
end

