-- ==== Sys2Proof/Machine/KeySchedule.lean ====
section
/-! DEFINITION. The key schedule derivator (spec/41_key_schedule.md): the closed form `KeyExpand` (R132) and the
engine step in phase `KEXP` (R131). -/

namespace Sys2Proof.Machine

/-- The word a key-schedule round computes from the window `K[r..r+3]`: `K[r+4]` (41 R131, R132). -/
def kexpWord (x : Quad) (r : Nat) : Word := x.w0 ^^^ tKey (x.w1 ^^^ x.w2 ^^^ x.w3 ^^^ ck r)

/-- The window shifted by one word, `t` entering at the end (41 R131; 42 R142). -/
def quadShift (x : Quad) (t : Word) : Quad := ⟨x.w1, x.w2, x.w3, t⟩

/-- `K[0..3] = MK ^ FK` for the master key as words (41 R132). -/
def kexpStart (mk : Quad) : Quad := quadXor mk fk

/-- The window `K[n..n+3]` after `n` rounds (41 R132). -/
def kexpWindow (mk : Quad) : Nat → Quad
  | 0 => kexpStart mk
  | n + 1 => quadShift (kexpWindow mk n) (kexpWord (kexpWindow mk n) n)

/-- `KeyExpand` on the master key as four words: `rk[i] = K[i+4]` (41 R132). -/
def keyExpandWords (mk : Quad) : Vector Word 32 :=
  Vector.ofFn fun i => kexpWord (kexpWindow mk i.val) i.val

/-- `KeyExpand(k)` for a 16-byte key (41 R132). -/
def keyExpand (k : Bytes16) : Vector Word 32 := keyExpandWords (words k)

/-- The engine step in phase `KEXP` (41 R131). -/
def kexpStep (e : Engine) : Engine :=
  let r := e.seq.rnd
  let t := kexpWord e.x r.val
  if h : r.val < 31 then
    { e with
      rk := e.rk.set r.val t
      x := quadShift e.x t
      seq := { e.seq with rnd := ⟨r.val + 1, by omega⟩ } }
  else
    { e with
      rk := e.rk.set r.val t
      x := quadZero
      seq := seqIdle
      keyValid := true
      done := true }

end Sys2Proof.Machine
end

