-- ==== Sys2Proof/Machine/BlockTransform.lean ====
section
/-! DEFINITION. The block transform (spec/42_block_transform.md): the round function (R140), the closed form
`Crypt` (R141), the subkey indexing (R143) and the engine step in phase `CRYPT` (R142). -/

namespace Sys2Proof.Machine

/-- The round function `F(a, b, c, d, k) = a ^ T(b ^ c ^ d ^ k)` (42 R140), on the window `(a, b, c, d)`. -/
def roundF (x : Quad) (k : Word) : Word := x.w0 ^^^ tData (x.w1 ^^^ x.w2 ^^^ x.w3 ^^^ k)

/-- The subkey of round `r`: `RK[r]` to encrypt, `RK[31 - r]` to decrypt (42 R143). `dir` is the command's DIR
bit: true = decrypt. -/
def subkey (rk : Vector Word 32) (dir : Bool) (r : Fin 32) : Word :=
  if dir then rk[31 - r.val] else rk[r.val]

/-- One round on the window: `X[r..r+3]` to `X[r+1..r+4]` (42 R141). -/
def cryptRound (rk : Vector Word 32) (dir : Bool) (x : Quad) (r : Fin 32) : Quad :=
  quadShift x (roundF x (subkey rk dir r))

/-- The window `X[n..n+3]` after `n` rounds on the block `b`; there are 32 rounds, so `n` beyond 32 adds none
(42 R141). -/
def cryptWindow (rk : Vector Word 32) (dir : Bool) (b : Quad) : Nat → Quad
  | 0 => b
  | n + 1 =>
    if h : n < 32 then cryptRound rk dir (cryptWindow rk dir b n) ⟨n, h⟩
    else cryptWindow rk dir b n

/-- `Crypt` on words: `(X[35], X[34], X[33], X[32])` (42 R141). -/
def cryptWords (rk : Vector Word 32) (dir : Bool) (b : Quad) : Quad :=
  quadReverse (cryptWindow rk dir b 32)

/-- `Crypt(rk, dir, B)` (42 R141); the source's `Transform`. -/
def crypt (rk : Vector Word 32) (dir : Bool) (b : Bytes16) : Bytes16 :=
  bytes (cryptWords rk dir (words b))

/-- `SEQ.op[0]`: true = decrypt (10 R28; 42 R142). -/
def opDir (op : BitVec 2) : Bool := op.getLsbD 0

/-- `SEQ.op[1]`: true = CBC (10 R28; 42 R142). -/
def opMode (op : BitVec 2) : Bool := op.getLsbD 1

/-- What the completing step does with the output words `Y` (42 R142): the value of `DOUT` and of `CHAIN`. -/
def completeOutput (mode dir : Bool) (y chain csave : Quad) : Quad × Quad :=
  match mode, dir with
  | false, _ => (y, chain)
  | true, false => (y, y)
  | true, true => (quadXor y chain, csave)

/-- The engine step in phase `CRYPT` (42 R142). -/
def cryptStep (e : Engine) : Engine :=
  let r := e.seq.rnd
  let dir := opDir e.seq.op
  let t := roundF e.x (subkey e.rk dir r)
  if h : r.val < 31 then
    { e with
      x := quadShift e.x t
      seq := { e.seq with rnd := ⟨r.val + 1, by omega⟩ } }
  else
    let y : Quad := ⟨t, e.x.w3, e.x.w2, e.x.w1⟩
    let out := completeOutput (opMode e.seq.op) dir y e.chain e.csave
    { e with
      dout := out.1
      chain := out.2
      x := quadZero
      csave := quadZero
      seq := seqIdle
      done := true }

end Sys2Proof.Machine
end

