-- ==== Sys2Proof/Machine/Flags.lean ====
section
/-! DEFINITION. The flags and the two control registers as words (spec/10_state.md R25, R31, R32, R35, R36):
reading `STATUS` and `CTRL`, writing them, the written masks, and the `irq` output. -/

namespace Sys2Proof.Machine

/-- `STATUS.BUSY`: "not stored: equals `SEQ.phase != IDLE`" (10 R32). -/
def busy (e : Engine) : Bool := e.seq.phase != .idle

/-- Whether any error flag is set: `STATUS[14:8] != 0` (10 R36). -/
def ErrFlags.any (f : ErrFlags) : Bool :=
  f.busy || f.op || f.keyLen || f.ivLen || f.dLen || f.noKey || f.noIv

/-- The error flags as `STATUS[14:8]`, `E_BUSY` lowest (10 R32). -/
def ErrFlags.bits (f : ErrFlags) : BitVec 7 :=
  BitVec.ofBool f.noIv ++ BitVec.ofBool f.noKey ++ BitVec.ofBool f.dLen ++ BitVec.ofBool f.ivLen ++
    BitVec.ofBool f.keyLen ++ BitVec.ofBool f.op ++ BitVec.ofBool f.busy

/-- No error flag set. -/
def ErrFlags.none : ErrFlags := ⟨false, false, false, false, false, false, false⟩

/-- The flags with one of them set (60 R222). -/
def ErrFlags.set (f : ErrFlags) : Err → ErrFlags
  | .eBusy => { f with busy := true }
  | .eOp => { f with op := true }
  | .eKeyLen => { f with keyLen := true }
  | .eIvLen => { f with ivLen := true }
  | .eDLen => { f with dLen := true }
  | .eNoKey => { f with noKey := true }
  | .eNoIv => { f with noIv := true }

/-- One of the flags. -/
def ErrFlags.get (f : ErrFlags) : Err → Bool
  | .eBusy => f.busy
  | .eOp => f.op
  | .eKeyLen => f.keyLen
  | .eIvLen => f.ivLen
  | .eDLen => f.dLen
  | .eNoKey => f.noKey
  | .eNoIv => f.noIv

/-- The cause code of an error: its bit number in `STATUS` (10 R35; 60 R221). -/
def Err.code : Err → Nat
  | .eBusy => 8
  | .eOp => 9
  | .eKeyLen => 10
  | .eIvLen => 11
  | .eDLen => 12
  | .eNoKey => 13
  | .eNoIv => 14

/-- The word `RegRead(0x04)` returns, assembled field by field from bit 31 down (10 R32). -/
def statusWord (e : Engine) : Word :=
  0#4 ++ e.dinw ++ e.ivw ++ e.keyw ++ 0#1 ++ e.err.bits ++ 0#4 ++ BitVec.ofBool e.ivValid ++
    BitVec.ofBool e.keyValid ++ BitVec.ofBool e.done ++ BitVec.ofBool (busy e)

/-- The word `RegRead(0x00)` returns: `zext_32(EIE || DIE)` (10 R31). -/
def ctrlWord (e : Engine) : Word :=
  0#30 ++ BitVec.ofBool e.ctrl.eie ++ BitVec.ofBool e.ctrl.die

/-- `RegWrite(0x00, v)`: `DIE <- v[0]`, `EIE <- v[1]`, other bits ignored (10 R31). -/
def writeCtrl (e : Engine) (v : Word) : Engine :=
  { e with ctrl := ⟨v.getLsbD 0, v.getLsbD 1⟩ }

/-- The error flags after writing `v` to `STATUS`: each flag whose bit in `v` is 1 is cleared (10 R32). -/
def ErrFlags.writeOneToClear (f : ErrFlags) (v : Word) : ErrFlags where
  busy := f.busy && !v.getLsbD 8
  op := f.op && !v.getLsbD 9
  keyLen := f.keyLen && !v.getLsbD 10
  ivLen := f.ivLen && !v.getLsbD 11
  dLen := f.dLen && !v.getLsbD 12
  noKey := f.noKey && !v.getLsbD 13
  noIv := f.noIv && !v.getLsbD 14

/-- `RegWrite(0x04, v)`: write 1 to clear on bits 1 and 8 to 14, every other bit ignored (10 R32). This is also
what "returning" from an error is (60 R235). -/
def writeStatus (e : Engine) (v : Word) : Engine :=
  { e with done := e.done && !v.getLsbD 1, err := e.err.writeOneToClear v }

/-- A written mask after a host write of word `i` of its group (10 R25). -/
def maskSet (m : BitVec 4) (i : Fin 4) : BitVec 4 := m ||| (1#4 <<< i.val)

/-- A group whose mask is `1111` holds exactly 16 bytes (10 R25). -/
def maskFull (m : BitVec 4) : Bool := m == 0b1111#4

/-- The `irq` output, a level with no state of its own (10 R36; 60 R232). -/
def irq (e : Engine) : Bool := (e.ctrl.die && e.done) || (e.ctrl.eie && e.err.any)

end Sys2Proof.Machine
end

