-- ==== Sys2Proof/Machine/Ops.lean ====
section
/-! DEFINITION. The operations the meanings share: rejecting a command (spec/60_exceptions.md R222), the common
shape of a command (30 R91), starting the sequencer (10 R28), and the engine step (41 R131, 42 R142). -/

namespace Sys2Proof.Machine

/-- `raise E_X`: "`STATUS.E_X <- 1` ... Nothing else changes" (60 R222; 00 R12). The one synchronous exception of
the engine; there is no saved state, no mode and no control transfer (60 R220, R234). -/
def raise (x : Err) (e : Engine) : Engine := { e with err := e.err.set x }

/-- A command word presented to the engine (30 R91): rejected with `E_BUSY` while busy, else rejected by the
command's own first failing check, else accepted. One atomic action. -/
def runCommand (check : Engine → Option Err) (accept : Engine → Engine) (e : Engine) : Engine :=
  if busy e then raise .eBusy e
  else
    match check e with
    | some x => raise x e
    | none => accept e

/-- A command has no check of its own (44 R170, R171). -/
def noCheck (_ : Engine) : Option Err := none

/-- The checks of a block command with mode bit `mode`, in the order of 43 R155. -/
def blockCheck (mode : Bool) (e : Engine) : Option Err :=
  if !e.keyValid then some .eNoKey
  else if mode && !e.ivValid then some .eNoIv
  else if !maskFull e.dinw then some .eDLen
  else none

/-- `SEQ <- (phase, 0, op)`: a command's acceptance starts the sequencer (10 R28). -/
def seqStart (phase : Phase) (op : BitVec 2) : Seq := ⟨phase, 0, op⟩

/-- What the acceptance of every block command does (43 R151 to R154): load the window, set `CSAVE` (only
`CBC.DEC` changes it), consume `DINW`, clear `DONE`, start the sequencer. -/
def acceptBlock (op : BitVec 2) (x csave : Quad) (e : Engine) : Engine :=
  { e with
    x := x
    csave := csave
    dinw := 0b0000#4
    done := false
    seq := seqStart .crypt op }

/-- The engine step: one round of the command in progress, enabled when `SEQ.phase != IDLE` (00 R11). In phase
`IDLE` it is not enabled and changes nothing. -/
def engineStep (e : Engine) : Engine :=
  match e.seq.phase with
  | .idle => e
  | .kexp => kexpStep e
  | .crypt => cryptStep e

/-- `n` engine steps. -/
def engineSteps : Nat → Engine → Engine
  | 0, e => e
  | n + 1, e => engineSteps n (engineStep e)

/-- The machine with its engine replaced: nothing of the outside world changes. -/
def State.withEngine (s : State) (e : Engine) : State := { s with engine := e }

end Sys2Proof.Machine
end

