-- ==== Sys2Proof/Machine/Control.lean ====
section
/-! DEFINITION. The control commands `NOP` and `ZERO` (spec/44_control_commands.md). -/

namespace Sys2Proof.Machine

/-- `NOP` does nothing when accepted: "None at all" (44 R170). -/
def acceptNop (e : Engine) : Engine := e

/-- `NOP` (44 R170). -/
def execNop (s : State) : Host.Outcome State Fault Refusal :=
  .next (s.withEngine (runCommand noCheck acceptNop s.engine))

/-- `ZERO` accepted: "every element takes its reset value" (44 R171; 10 R39). -/
def acceptZero (_ : Engine) : Engine := Engine.reset

/-- `ZERO` (44 R171). -/
def execZero (s : State) : Host.Outcome State Fault Refusal :=
  .next (s.withEngine (runCommand noCheck acceptZero s.engine))

end Sys2Proof.Machine
end

