-- ==== Sys2Proof/Machine/KeyExp.lean ====
section
/-! DEFINITION. The command `KEYEXP` (spec/41_key_schedule.md R130). -/

namespace Sys2Proof.Machine

/-- The check of `KEYEXP`: "if `KEYW != 1111` then `raise E_KEYLEN`" (41 R130). -/
def keyexpCheck (e : Engine) : Option Err := if maskFull e.keyw then none else some .eKeyLen

/-- The acceptance effects of `KEYEXP` (41 R130): FK injected into the staged key, the key consumed. -/
def acceptKeyexp (e : Engine) : Engine :=
  { e with
    x := kexpStart e.key
    key := quadZero
    keyw := 0b0000#4
    keyValid := false
    done := false
    seq := seqStart .kexp 0b00#2 }

/-- `KEYEXP` (41 R130). -/
def execKeyexp (s : State) : Host.Outcome State Fault Refusal :=
  .next (s.withEngine (runCommand keyexpCheck acceptKeyexp s.engine))

end Sys2Proof.Machine
end

