-- ==== Sys2Proof/Machine/Mode.lean ====
section
/-! DEFINITION. The mode controller's commands (spec/43_mode_commands.md R150 to R155): `IVLOAD` and the four
block commands. -/

namespace Sys2Proof.Machine

/-- The check of `IVLOAD`: "if `IVW != 1111` then `raise E_IVLEN`" (43 R150). -/
def ivloadCheck (e : Engine) : Option Err := if maskFull e.ivw then none else some .eIvLen

/-- The acceptance effects of `IVLOAD`, the whole command (43 R150): "chain starts as IV". -/
def acceptIvload (e : Engine) : Engine := { e with chain := e.iv, ivValid := true, done := true }

/-- `IVLOAD` (43 R150). -/
def execIvload (s : State) : Host.Outcome State Fault Refusal :=
  .next (s.withEngine (runCommand ivloadCheck acceptIvload s.engine))

/-- The acceptance effects of `ECB.ENC` (43 R151). -/
def acceptEcbEnc (e : Engine) : Engine := acceptBlock 0b00#2 e.din e.csave e

/-- `ECB.ENC` (43 R151). -/
def execEcbEnc (s : State) : Host.Outcome State Fault Refusal :=
  .next (s.withEngine (runCommand (blockCheck false) acceptEcbEnc s.engine))

/-- The acceptance effects of `ECB.DEC` (43 R152). -/
def acceptEcbDec (e : Engine) : Engine := acceptBlock 0b01#2 e.din e.csave e

/-- `ECB.DEC` (43 R152). -/
def execEcbDec (s : State) : Host.Outcome State Fault Refusal :=
  .next (s.withEngine (runCommand (blockCheck false) acceptEcbDec s.engine))

/-- The acceptance effects of `CBC.ENC` (43 R153): the block is XORed with the chain value on the way in. -/
def acceptCbcEnc (e : Engine) : Engine := acceptBlock 0b10#2 (quadXor e.din e.chain) e.csave e

/-- `CBC.ENC` (43 R153). -/
def execCbcEnc (s : State) : Host.Outcome State Fault Refusal :=
  .next (s.withEngine (runCommand (blockCheck true) acceptCbcEnc s.engine))

/-- The acceptance effects of `CBC.DEC` (43 R154): the ciphertext block is saved for the next chain value. -/
def acceptCbcDec (e : Engine) : Engine := acceptBlock 0b11#2 e.din e.din e

/-- `CBC.DEC` (43 R154). -/
def execCbcDec (s : State) : Host.Outcome State Fault Refusal :=
  .next (s.withEngine (runCommand (blockCheck true) acceptCbcDec s.engine))

end Sys2Proof.Machine
end

