-- ==== Sys2Proof/Config.lean ====
section
/-! DEFINITION. What an implementation fixes and the free values: constants of the spec (00 R7) and the values
the spec leaves open. An opaque constant has no value that a proof could use. -/

namespace Sys2Proof.Config

/-- The key is exactly 16 bytes (00 R2, R7). -/
def keyBytes : Nat := 16
/-- The block is exactly 16 bytes (00 R2, R7). -/
def blockBytes : Nat := 16
/-- The IV is exactly 16 bytes (00 R7). -/
def ivBytes : Nat := 16
/-- 32 rounds per key schedule and per block (00 R2, R7). -/
def rounds : Nat := 32
/-- The size of the register window in bytes (00 R7; 20 R60). -/
def regSpaceBytes : Nat := 256

/-- The bus address of offset 0 of the register window: OPEN, a parameter of the platform; no rule depends on
it (00 R7; 20 R66; 93 U16). Log 4: safe. -/
opaque base : Nat

/-- FREE VALUE. How many host actions come before the next engine step when the engine is busy, drawn at each
draw number: no upper and no lower bound may be assumed, and every value is finite, which is the weak fairness
of 70 R266. Log 1: safe. -/
opaque hostActionsBefore : Nat → Nat

/-- The parameter `base64_strict` of the codec (93 U7): whether a misplaced `=` and non-zero discarded bits are
a Base64DecodeError. The spec does not choose. Log 10: safe. -/
opaque base64Strict : Bool

/-- FREE VALUE. The bytes that a lenient decoder gives for a base64 text with a misplaced `=` (93 U7: accepted
where `base64_strict` is false; the spec states no bytes). Log 10: safe. -/
opaque base64MisplacedBytes : List Nat → Bytes

end Sys2Proof.Config
end

