-- ==== Sys2Proof/Machine/Operands.lean ====
section
/-! DEFINITION. The register window (spec/20_memory.md R60, R61, R64, R72): the slots, which accesses exist,
what each read returns and what each write does, a write to `CMD` apart (Bus.lean). -/

namespace Sys2Proof.Machine

/-- The slots of the window (20 R61; 10 R20). -/
inductive Slot where
  | ctrl
  | status
  | cmd
  | key (i : Fin 4)
  | iv (i : Fin 4)
  | din (i : Fin 4)
  | dout (i : Fin 4)
  /-- 0x0C and 0x50 to 0xFC -/
  | reserved
deriving DecidableEq, Repr

/-- The slot with a given number, its offset divided by 4 (20 R61). -/
def slotNumbered (n : Nat) : Slot :=
  match n with
  | 0 => .ctrl
  | 1 => .status
  | 2 => .cmd
  | 4 => .key 0
  | 5 => .key 1
  | 6 => .key 2
  | 7 => .key 3
  | 8 => .iv 0
  | 9 => .iv 1
  | 10 => .iv 2
  | 11 => .iv 3
  | 12 => .din 0
  | 13 => .din 1
  | 14 => .din 2
  | 15 => .din 3
  | 16 => .dout 0
  | 17 => .dout 1
  | 18 => .dout 2
  | 19 => .dout 3
  | _ => .reserved

/-- The slot at a byte offset, or why the access does not exist: only aligned 32-bit accesses inside the window
are actions of the interface (20 R64; 93 U1, U12; log 5). -/
def slotAt (off bytes : Nat) : Except Refusal Slot :=
  if bytes ≠ 4 ∨ off % 4 ≠ 0 then .error .notAnAccess
  else if Config.regSpaceBytes ≤ off then .error .outsideWindow
  else .ok (slotNumbered (off / 4))

/-- The offset of a bus address in the window, if the engine is at that address (20 R60, R66): the window is
`BASE + 0x00` to `BASE + 0xFF`; other addresses are not the engine's. -/
def windowOffset (addr : Nat) : Option Nat :=
  if Config.base ≤ addr ∧ addr < Config.base + Config.regSpaceBytes then some (addr - Config.base) else none

/-- `MemRead(addr, bytes)` as a bus event of the engine (00 R12). -/
def memReadEvent (addr bytes : Nat) : Option BusEvent := (windowOffset addr).map fun off => .read off bytes

/-- `MemWrite(addr, bytes, v)` as a bus event of the engine (00 R12). -/
def memWriteEvent (addr bytes : Nat) (v : Word) : Option BusEvent :=
  (windowOffset addr).map fun off => .write off bytes v

/-- What `RegRead` of a slot returns; a read has no side effect (20 R65, R72; 10 R21 to R24, R31 to R33). -/
def readSlot (e : Engine) : Slot → Word
  | .ctrl => ctrlWord e
  | .status => statusWord e
  | .cmd => 0#32
  | .key _ => 0#32
  | .iv i => quadGet e.iv i
  | .din i => quadGet e.din i
  | .dout i => quadGet e.dout i
  | .reserved => 0#32

/-- `RegWrite` of a `KEY` slot: `KEY[i] <- v`, `KEYW[i] <- 1`, busy or not (10 R21). -/
def writeKey (e : Engine) (i : Fin 4) (v : Word) : Engine :=
  { e with key := quadSet e.key i v, keyw := maskSet e.keyw i }

/-- `RegWrite` of an `IV` slot: `IV[i] <- v`, `IVW[i] <- 1`, busy or not (10 R22). -/
def writeIv (e : Engine) (i : Fin 4) (v : Word) : Engine :=
  { e with iv := quadSet e.iv i v, ivw := maskSet e.ivw i }

/-- `RegWrite` of a `DIN` slot: `DIN[i] <- v`, `DINW[i] <- 1`, busy or not (10 R23). -/
def writeDin (e : Engine) (i : Fin 4) (v : Word) : Engine :=
  { e with din := quadSet e.din i v, dinw := maskSet e.dinw i }

/-- What `RegWrite` of a slot other than `CMD` does (20 R72): writes to `DOUT` and to reserved slots are ignored
(20 R65). The command port has no storage (10 R33): its write is `writeCmd` in Bus.lean. -/
def writeSlot (e : Engine) (slot : Slot) (v : Word) : Engine :=
  match slot with
  | .ctrl => writeCtrl e v
  | .status => writeStatus e v
  | .cmd => e
  | .key i => writeKey e i v
  | .iv i => writeIv e i v
  | .din i => writeDin e i v
  | .dout _ => e
  | .reserved => e

end Sys2Proof.Machine
end

