-- ==== Sys2Proof/Machine/Bus.lean ====
section
/-! DEFINITION. What each bus event does (spec/20_memory.md R65, R72; spec/30_encoding.md R91, R100;
spec/70_reset_and_hazards.md R260): one atomic action each. -/

namespace Sys2Proof.Machine

open Sys2Proof

/-- `RegWrite(0x08, v)` (30 R91): 1. `E_BUSY` while busy, "v is not examined"; 2. `E_OP` for a reserved value;
3. the command's own rule. -/
def writeCmd (v : Word) (s : State) : Host.Outcome State Fault Refusal :=
  if busy s.engine then .next (s.withEngine (raise .eBusy s.engine))
  else
    match decode v with
    | .error _ => .next (s.withEngine (raise .eOp s.engine))
    | .ok i => exec i s

/-- A bus read: the value is appended to the read log, nothing else changes (20 R65; 30 R98); an access that
does not exist is refused (20 R64). -/
def busRead (off bytes : Nat) (s : State) : Host.Outcome State Fault Refusal :=
  match slotAt off bytes with
  | .error r => .refused r
  | .ok slot => .next { s with readLog := s.readLog ++ [readSlot s.engine slot] }

/-- A bus write (20 R72); an access that does not exist is refused (20 R64). -/
def busWrite (off bytes : Nat) (v : Word) (s : State) : Host.Outcome State Fault Refusal :=
  match slotAt off bytes with
  | .error r => .refused r
  | .ok .cmd => writeCmd v s
  | .ok slot => .next (s.withEngine (writeSlot s.engine slot v))

/-- One read of `wait`: `STATUS` bit 0, unlogged; while it reads 1 the `wait` goes on (30 R100; log 7). -/
def busPoll (s : State) : Host.Outcome State Fault Refusal :=
  if (readSlot s.engine .status).getLsbD 0 then .next { s with pending := .poll :: s.pending } else .next s

/-- The host observes `irq` (00 R11; 10 R36). -/
def busObserveIrq (s : State) : Host.Outcome State Fault Refusal :=
  .next { s with irqLog := s.irqLog ++ [irq s.engine] }

/-- The `reset` input: every element of the engine takes its reset value, a command in progress is abandoned
(70 R260). It is the engine's input: what the host has pending or has read stays (log 2). -/
def busReset (s : State) : Host.Outcome State Fault Refusal :=
  .next (s.withEngine Engine.reset)

/-- One bus event, already taken from `pending`. -/
def performEvent (ev : BusEvent) (s : State) : Host.Outcome State Fault Refusal :=
  match ev with
  | .read off bytes => busRead off bytes s
  | .write off bytes v => busWrite off bytes v s
  | .poll => busPoll s
  | .observeIrq => busObserveIrq s
  | .reset => busReset s

end Sys2Proof.Machine
end

