-- ==== Sys2Proof/Machine/Schedule.lean ====
section
/-! DEFINITION. Who moves next (spec/00_scope.md R11, spec/70_reset_and_hazards.md R266): any interleaving of host
actions and engine steps, the engine weakly fair. The number of host actions before each engine step is a free
value (log 1). -/

namespace Sys2Proof.Machine

/-- The next action of the machine. -/
inductive Move where
  /-- the sequencer takes an engine step -/
  | engine
  /-- the outside world's next event, the rest staying pending -/
  | event (ev : BusEvent) (rest : List BusEvent)
  /-- nothing is enabled: the engine is idle and no event is pending -/
  | quiet
deriving DecidableEq, Repr

/-- How many host actions may still come before the next engine step: the number drawn, or a fresh free value. -/
def hostBudget (s : State) : Nat :=
  match s.budget with
  | some n => n
  | none => Config.hostActionsBefore s.ticks

/-- Who moves next. An idle engine is not enabled (00 R11). A busy one steps when nothing is pending or when the
host actions before this engine step are used up. -/
def nextMove (s : State) : Move :=
  match s.pending with
  | [] => if busy s.engine then .engine else .quiet
  | ev :: rest =>
    if busy s.engine then
      match hostBudget s with
      | 0 => .engine
      | _ + 1 => .event ev rest
    else .event ev rest

/-- The machine with the next event taken from `pending`, before it acts. -/
def takeEvent (s : State) (rest : List BusEvent) : State :=
  { s with
    pending := rest
    budget := if busy s.engine then some (hostBudget s - 1) else none
    ticks := s.ticks + 1 }

/-- The machine after an engine step: the next one's budget is still to be drawn. -/
def takeEngineStep (s : State) : State :=
  { s with
    engine := engineStep s.engine
    budget := none
    ticks := s.ticks + 1 }

/-- The machine with one event put before all pending ones, and room for it before the next engine step. -/
def State.placeFirst (s : State) (ev : BusEvent) : State :=
  { s with
    pending := ev :: s.pending
    budget := if busy s.engine then some (s.budget.getD 0 + 1) else s.budget }

end Sys2Proof.Machine
end

