-- ==== Sys2Proof/Machine/Step.lean ====
section
/-! DEFINITION. One step of the machine: one atomic action of the host, of the environment or of the engine
sequencer (spec/00_scope.md R11). -/

namespace Sys2Proof.Machine

/-- One step. Where nothing is enabled the machine stays as it is (log 2). -/
def step (s : State) : Host.Outcome State Fault Refusal :=
  match nextMove s with
  | .engine => .next (takeEngineStep s)
  | .event ev rest => performEvent ev (takeEvent s rest)
  | .quiet => .next s

/-- The machine about to receive a command: the host's next action is the write of that command word to `CMD`
(30 R90; 20 R69: a command is fetched only by the write that carries it). Bits above `nbits` are 0. -/
def State.withFetchWord (s : State) (nbits w : Nat) : State :=
  s.placeFirst (.write 0x08 4 (BitVec.ofNat 32 (w % 2 ^ nbits)))

end Sys2Proof.Machine
end

