-- ==== Sys2Proof/Machine/Padding.lean ====
section
/-! DEFINITION. The host layer's results and its padding (spec/45_host_layer.md R180 to R185, R202). Host
software, not hardware (00 R4). -/

namespace Sys2Proof.Machine

open Sys2Proof

/-- The four error kinds of the driver (45 R202; 60 R221). -/
inductive DriverError where
  | invalidKeyLength
  | invalidIVLength
  | invalidCiphertextLength
  | base64DecodeError
deriving DecidableEq, Repr

/-- Why the driver gives no result: cases the spec leaves open and orders a model to refuse. -/
inductive DriverRefusal where
  /-- `Unpad(D)` with the last byte `p > len(D)` (93 U3; 92 D22). Safe. -/
  | unpadOverrun
  /-- `Unpad(D)` with `D` empty (93 U4; 92 D22). Safe. -/
  | unpadEmpty
  /-- Encrypting without padding a length that is not a multiple of 16 (93 U5; 92 D29). Safe. -/
  | unpaddedShortBlock
  /-- UTF-8 decoding of malformed input (93 U6). Safe. -/
  | malformedUtf8
  /-- UTF-8 encoding of what is no Unicode scalar value (93 U6). Safe. -/
  | notScalarValue
deriving DecidableEq, Repr

/-- What a driver operation returns: "either a result or one of the four error kinds" (45 R202), or no result
where the spec leaves the case open. A failed call has no partial result (45 R194). -/
inductive DriverResult (α : Type) where
  | ok (a : α)
  | error (e : DriverError)
  | refused (r : DriverRefusal)
deriving DecidableEq, Repr

/-- Go on with a result; a failure is the whole result (45 R194). -/
def DriverResult.bind {α β : Type} (x : DriverResult α) (f : α → DriverResult β) : DriverResult β :=
  match x with
  | .ok a => f a
  | .error e => .error e
  | .refused r => .refused r

/-- A result carried through a function that cannot fail. -/
def DriverResult.map {α β : Type} (f : α → β) (x : DriverResult α) : DriverResult β :=
  x.bind fun a => .ok (f a)

/-- The compatibility adapter "that maps errors to null" (45 R202; 93 U17); null is `none`. -/
def DriverResult.toNull {α : Type} (x : DriverResult α) : DriverResult (Option α) :=
  match x with
  | .ok a => .ok (some a)
  | .error _ => .ok none
  | .refused r => .refused r

/-- The padding length `p = 16 - (len(M) mod 16)`, in 1 to 16 (45 R180). -/
def padLength (m : Bytes) : Nat := Config.blockBytes - m.length % Config.blockBytes

/-- `Pad(M) = M ++ rep(p, p)` (45 R180); no skip when aligned (45 R181). -/
def pad (m : Bytes) : Bytes := m ++ List.replicate (padLength m) (BitVec.ofNat 8 (padLength m))

/-- `Unpad(D)`: "read the value `p` of the last output byte and drop the last `p` bytes", no validation (45 R182).
Where `p > len(D)` or `D` is empty the spec gives no result (93 U3, U4). -/
def unpad (d : Bytes) : DriverResult Bytes :=
  match d.getLast? with
  | none => .refused .unpadEmpty
  | some p => if p.toNat ≤ d.length then .ok (d.take (d.length - p.toNat)) else .refused .unpadOverrun

/-- Sixteen bytes of a sequence as a block; a byte the sequence does not have is 0 (never read: every use takes
blocks of sequences whose length is a multiple of 16). -/
def block16 (s : Bytes) : Bytes16 := Vector.ofFn fun i => s.getD i.val 0#8

/-- The first `n` blocks of a sequence, in index order (45 R185). -/
def takeBlocks : Nat → Bytes → List Bytes16
  | 0, _ => []
  | n + 1, s => block16 s :: takeBlocks n (s.drop Config.blockBytes)

/-- The blocks `S_1 .. S_n` of a sequence of length `16 n` (45 R185). -/
def splitBlocks (s : Bytes) : List Bytes16 := takeBlocks (s.length / Config.blockBytes) s

/-- Blocks concatenated in order (45 R185). -/
def joinBlocks (bs : List Bytes16) : Bytes := bs.flatMap fun b => b.toList

end Sys2Proof.Machine
end

