-- ==== Sys2Proof/Machine/Codec.lean ====
section
/-! DEFINITION. The codec layer (spec/45_host_layer.md R195 to R198): UTF-8 and base64. A text is the list of its
code points, each a natural number. -/

namespace Sys2Proof.Machine

open Sys2Proof

/-- A string: its Unicode code points in order. -/
abbrev Text := List Nat

/-- A Unicode scalar value: a code point up to 10FFFF that is no surrogate (93 U6). -/
def isScalar (c : Nat) : Bool := (c < 0xD800 || 0xE000 ≤ c) && c ≤ 0x10FFFF

/-- A byte from a number below 256. -/
def byteOf (n : Nat) : Byte := BitVec.ofNat 8 n

/-- A continuation byte `10xxxxxx` with six payload bits of `c` starting at bit `sh` (45 R195). -/
def contByte (c sh : Nat) : Byte := byteOf (0x80 + (c >>> sh) % 64)

/-- The UTF-8 bytes of one code point (45 R195). -/
def utf8EncodePoint (c : Nat) : Bytes :=
  if c ≤ 0x7F then [byteOf c]
  else if c ≤ 0x7FF then [byteOf (0xC0 + (c >>> 6)), contByte c 0]
  else if c ≤ 0xFFFF then [byteOf (0xE0 + (c >>> 12)), contByte c 6, contByte c 0]
  else [byteOf (0xF0 + (c >>> 18)), contByte c 12, contByte c 6, contByte c 0]

/-- String to bytes (45 R195); a text that is no sequence of Unicode scalar values is refused (93 U6). -/
def utf8Encode (t : Text) : DriverResult Bytes :=
  if t.all isScalar then .ok (t.flatMap utf8EncodePoint) else .refused .notScalarValue

/-- Whether a byte is tagged `10` (45 R195). -/
def isCont (b : Byte) : Bool := 0x80 ≤ b.toNat && b.toNat < 0xC0

/-- A code point from a lead byte's payload and the continuation bytes, six bits each (45 R196). -/
def joinPoint (lead : Nat) (cs : List Byte) : Nat := cs.foldl (fun n b => n * 64 + b.toNat % 64) lead

/-- Whether a code point may be written in `n` bytes: shortest form only, and a scalar value (93 U6: overlong
forms and surrogates are open; log 9). -/
def pointFits (n c : Nat) : Bool := (utf8EncodePoint c).length == n && isScalar c

/-- Put a code point before the rest of a decoding. -/
def consPoint (n c : Nat) (rest : Option Text) : Option Text :=
  if pointFits n c then rest.map (c :: ·) else none

/-- Bytes to code points by the run of leading ones of each lead byte (45 R196); `none` on malformed input. -/
def utf8DecodePoints : Bytes → Option Text
  | [] => some []
  | b :: t =>
    if b.toNat < 0x80 then consPoint 1 b.toNat (utf8DecodePoints t)
    else if b.toNat < 0xC0 then none
    else if b.toNat < 0xE0 then
      match t with
      | b1 :: t1 => if isCont b1 then consPoint 2 (joinPoint (b.toNat - 0xC0) [b1]) (utf8DecodePoints t1) else none
      | _ => none
    else if b.toNat < 0xF0 then
      match t with
      | b1 :: b2 :: t2 =>
        if isCont b1 && isCont b2 then consPoint 3 (joinPoint (b.toNat - 0xE0) [b1, b2]) (utf8DecodePoints t2)
        else none
      | _ => none
    else if b.toNat < 0xF8 then
      match t with
      | b1 :: b2 :: b3 :: t3 =>
        if isCont b1 && isCont b2 && isCont b3 then
          consPoint 4 (joinPoint (b.toNat - 0xF0) [b1, b2, b3]) (utf8DecodePoints t3)
        else none
      | _ => none
    else none

/-- Bytes to string (45 R196); malformed input is refused (93 U6). -/
def utf8Decode (b : Bytes) : DriverResult Text :=
  match utf8DecodePoints b with
  | some t => .ok t
  | none => .refused .malformedUtf8

/-- The character `=` (45 R197). -/
def padChar : Nat := 61

/-- The base64 character of a 6-bit value: `A` to `Z`, `a` to `z`, `0` to `9`, `+`, `/` (45 R197). -/
def base64Char (v : Nat) : Nat :=
  if v < 26 then 65 + v
  else if v < 52 then 97 + (v - 26)
  else if v < 62 then 48 + (v - 52)
  else if v = 62 then 43
  else 47

/-- The 6-bit value of a base64 character, if it is one (45 R197). -/
def base64Value (c : Nat) : Option Nat :=
  if 65 ≤ c ∧ c ≤ 90 then some (c - 65)
  else if 97 ≤ c ∧ c ≤ 122 then some (c - 97 + 26)
  else if 48 ≤ c ∧ c ≤ 57 then some (c - 48 + 52)
  else if c = 43 then some 62
  else if c = 47 then some 63
  else none

/-- Bytes to base64: "each 3 input bytes make 4 characters, most significant 6 bits first; a final group of 1 byte
makes 2 characters and `==`, of 2 bytes makes 3 characters and `=`" (45 R197). -/
def base64Encode : Bytes → Text
  | [] => []
  | [a] => [base64Char (a.toNat / 4), base64Char (a.toNat % 4 * 16), padChar, padChar]
  | [a, b] =>
    [base64Char (a.toNat / 4), base64Char (a.toNat % 4 * 16 + b.toNat / 16), base64Char (b.toNat % 16 * 4), padChar]
  | a :: b :: c :: rest =>
    base64Char (a.toNat / 4) :: base64Char (a.toNat % 4 * 16 + b.toNat / 16) ::
      base64Char (b.toNat % 16 * 4 + c.toNat / 64) :: base64Char (c.toNat % 64) :: base64Encode rest

/-- How a group of four characters may read: its bytes and whether discarded bits are all zero; `none` where a
`=` stands elsewhere than at the end of the last group (45 R197; 93 U7). -/
def base64Group (last : Bool) (c0 c1 c2 c3 : Nat) : Option (Bytes × Bool) :=
  match base64Value c0, base64Value c1, base64Value c2, base64Value c3 with
  | some a, some b, some c, some d =>
    some ([byteOf (a * 4 + b / 16), byteOf (b % 16 * 16 + c / 4), byteOf (c % 4 * 64 + d)], true)
  | some a, some b, some c, none =>
    if last then some ([byteOf (a * 4 + b / 16), byteOf (b % 16 * 16 + c / 4)], c % 4 == 0) else none
  | some a, some b, none, none => if last then some ([byteOf (a * 4 + b / 16)], b % 16 == 0) else none
  | _, _, _, _ => none

/-- The groups of a text of base64 characters and `=`: the bytes and whether all discarded bits are zero; `none`
where a `=` is misplaced. -/
def base64Groups : Text → Option (Bytes × Bool)
  | c0 :: c1 :: c2 :: c3 :: rest =>
    match base64Group rest.isEmpty c0 c1 c2 c3, base64Groups rest with
    | some (bs, z), some (bs', z') => some (bs ++ bs', z && z')
    | _, _ => none
  | _ => some ([], true)

/-- Base64 to bytes (45 R197, R198): a length that is no multiple of 4 or a character outside the alphabet and `=`
is a Base64DecodeError. Misplaced `=` and non-zero discarded bits follow the open parameter `base64_strict`
(93 U7; log 10). -/
def base64Decode (t : Text) : DriverResult Bytes :=
  if t.length % 4 ≠ 0 ∨ !t.all (fun c => (base64Value c).isSome || c == padChar) then .error .base64DecodeError
  else
    match base64Groups t with
    | some (bs, true) => .ok bs
    | some (bs, false) => if Config.base64Strict then .error .base64DecodeError else .ok bs
    | none => if Config.base64Strict then .error .base64DecodeError else .ok (Config.base64MisplacedBytes t)

end Sys2Proof.Machine
end

