-- ==== Sys2Proof/Machine/Script.lean ====
section
/-! DEFINITION. Host scripts (spec/30_encoding.md R98 to R101): the base instructions `wr` and `rd`, the
pseudo-instructions and their expansions into bus accesses. "It is a notation only; nothing in the hardware
parses it", so a script is data here, not text. -/

namespace Sys2Proof.Machine

open Sys2Proof

/-- The register names a script may use (30 R98; 10 R20). -/
inductive RegName where
  | ctrl
  | status
  | cmd
  | key (i : Fin 4)
  | iv (i : Fin 4)
  | din (i : Fin 4)
  | dout (i : Fin 4)
deriving DecidableEq, Repr

/-- `off(<reg>)`: word `i` of a group is at the group's first offset plus `4i` (20 R61; 10 R20). -/
def regOffset : RegName → Nat
  | .ctrl => 0x00
  | .status => 0x04
  | .cmd => 0x08
  | .key i => 0x10 + 4 * i.val
  | .iv i => 0x20 + 4 * i.val
  | .din i => 0x30 + 4 * i.val
  | .dout i => 0x40 + 4 * i.val

/-- A script instruction: the two base instructions (30 R98) and the pseudo-instructions (30 R99, R100). -/
inductive ScriptInstr where
  /-- `wr <reg>, <word>` -/
  | wr (r : RegName) (v : Word)
  /-- `rd <reg>` -/
  | rd (r : RegName)
  /-- `cmd <mnemonic>` -/
  | cmd (i : Instr)
  /-- `wkey <32 hex digits>` -/
  | wkey (b : Bytes16)
  /-- `wiv <32 hex digits>` -/
  | wiv (b : Bytes16)
  /-- `wdin <32 hex digits>` -/
  | wdin (b : Bytes16)
  /-- `rdout` -/
  | rdout
  /-- `clr <word>` -/
  | clr (v : Word)
  /-- `wait` -/
  | wait
deriving DecidableEq, Repr

/-- `RegWrite(off(r), v)` on the bus (30 R98). -/
def wrEvent (r : RegName) (v : Word) : BusEvent := .write (regOffset r) 4 v

/-- `RegRead(off(r))` on the bus (30 R98). -/
def rdEvent (r : RegName) : BusEvent := .read (regOffset r) 4

/-- The four writes of a word group "in index order 0, 1, 2, 3" (30 R99). -/
def wrGroup (r : Fin 4 → RegName) (q : Quad) : List BusEvent :=
  [wrEvent (r 0) q.w0, wrEvent (r 1) q.w1, wrEvent (r 2) q.w2, wrEvent (r 3) q.w3]

/-- The bus accesses of a script instruction (30 R98, R99, R100). -/
def expandInstr : ScriptInstr → List BusEvent
  | .wr r v => [wrEvent r v]
  | .rd r => [rdEvent r]
  | .cmd i => [wrEvent .cmd (encode i)]
  | .wkey b => wrGroup .key (words b)
  | .wiv b => wrGroup .iv (words b)
  | .wdin b => wrGroup .din (words b)
  | .rdout => [rdEvent (.dout 0), rdEvent (.dout 1), rdEvent (.dout 2), rdEvent (.dout 3)]
  | .clr v => [wrEvent .status v]
  | .wait => [.poll]

/-- The bus accesses of a script, in order (30 R98). -/
def expandScript (sc : List ScriptInstr) : List BusEvent := sc.flatMap expandInstr

/-- Key set-up: `wkey k` ; `cmd KEYEXP` ; `wait` (30 R101). -/
def scriptKeySetUp (k : Bytes16) : List ScriptInstr := [.wkey k, .cmd .keyexp, .wait]

/-- Chain start: `wiv iv` ; `cmd IVLOAD` (30 R101). -/
def scriptChainStart (iv : Bytes16) : List ScriptInstr := [.wiv iv, .cmd .ivload]

/-- One block: `wdin b` ; `cmd <block mnemonic>` ; `wait` ; `rdout` (30 R101). -/
def scriptBlock (i : Instr) (b : Bytes16) : List ScriptInstr := [.wdin b, .cmd i, .wait, .rdout]

/-- The machine with a script handed to its host: its bus accesses come after those already pending (20 R67). -/
def State.submit (s : State) (sc : List ScriptInstr) : State :=
  { s with pending := s.pending ++ expandScript sc }

end Sys2Proof.Machine
end

