-- ==== Sys2Proof/Machine/Driver.lean ====
section
/-! DEFINITION. The host driver (spec/45_host_layer.md R186 to R194, R199 to R206): the message procedures as host
scripts, the values they are to return, the facade's four operations, the default key and IV. -/

namespace Sys2Proof.Machine

open Sys2Proof

/-- The two modes (43; 45 R186 to R189). -/
inductive Mode where
  | ecb
  | cbc
deriving DecidableEq, Repr

/-- The direction of a call (45 R204). -/
inductive Direction where
  | encrypt
  | decrypt
deriving DecidableEq, Repr

/-- One message call: what the driver is given. `direction` and `paddingEnabled` are the source's CipherContext,
fixed for the whole call; its schedule is the engine's `RK` (45 R204). `iv` is examined in CBC only.
`scheduleReady`: the engine already holds the schedule of this key, so the set-up may be skipped (45 R190). -/
structure Call where
  mode : Mode
  direction : Direction
  paddingEnabled : Bool
  scheduleReady : Bool
  key : Bytes
  iv : Bytes
  message : Bytes
deriving DecidableEq, Repr

/-- The block command of a mode and a direction (45 R186 to R189). -/
def blockCommand : Mode → Direction → Instr
  | .ecb, .encrypt => .ecbEnc
  | .ecb, .decrypt => .ecbDec
  | .cbc, .encrypt => .cbcEnc
  | .cbc, .decrypt => .cbcDec

/-- The checks on the key and the IV, in the order of 45 R192; all are made before any register is written
(45 R203). -/
def checkLengths (c : Call) : DriverResult Unit :=
  if c.key.length ≠ Config.keyBytes then .error .invalidKeyLength
  else if c.mode = .cbc ∧ c.iv.length ≠ Config.ivBytes then .error .invalidIVLength
  else .ok ()

/-- The byte sequence whose blocks are processed: on encrypt the padded message, or the message itself without
padding (45 R184, R186, R188; 93 U5), on decrypt the ciphertext, whose length is checked (45 R187, R189). -/
def blockInput (c : Call) : DriverResult Bytes :=
  match c.direction with
  | .encrypt =>
    if c.paddingEnabled then .ok (pad c.message)
    else if c.message.length % Config.blockBytes = 0 then .ok c.message
    else .refused .unpaddedShortBlock
  | .decrypt =>
    if c.message.length % Config.blockBytes = 0 then .ok c.message else .error .invalidCiphertextLength

/-- What the call makes of the output bytes: unpadded on decrypt "if paddingEnabled" (45 R184, R187, R189). -/
def finishOutput (c : Call) (out : Bytes) : DriverResult Bytes :=
  match c.direction with
  | .encrypt => .ok out
  | .decrypt => if c.paddingEnabled then unpad out else .ok out

/-- The host script of a call (45 R186 to R191): key set-up, IV set-up in CBC, then every block in order. -/
def callScript (c : Call) : DriverResult (List ScriptInstr) :=
  (checkLengths c).bind fun _ =>
    (blockInput c).map fun s =>
      (if c.scheduleReady then [] else scriptKeySetUp (block16 c.key)) ++
        (if c.mode = .cbc then scriptChainStart (block16 c.iv) else []) ++
        (splitBlocks s).flatMap (scriptBlock (blockCommand c.mode c.direction))

/-- The bytes of logged words: through `bytes()`, four at a time, the blocks that `rdout` read (30 R99). -/
def logBytes (ws : List Word) : Bytes :=
  ws.flatMap fun w => [wordByte w 0, wordByte w 1, wordByte w 2, wordByte w 3]

/-- The result of a call from the words its script has read (45 R186 to R189). -/
def finishCall (c : Call) (readWords : List Word) : DriverResult Bytes := finishOutput c (logBytes readWords)

/-- CBC encryption of blocks from a chain value: `C_i = Crypt(rk, 0, P_i ^ C_(i-1))` (43 R156). -/
def cbcEncryptBlocks (rk : Vector Word 32) (chain : Quad) : List Quad → List Quad
  | [] => []
  | p :: ps => cryptWords rk false (quadXor p chain) :: cbcEncryptBlocks rk (cryptWords rk false (quadXor p chain)) ps

/-- CBC decryption of blocks from a chain value: `D_i = Crypt(rk, 1, C_i) ^ C_(i-1)` (43 R156). -/
def cbcDecryptBlocks (rk : Vector Word 32) (chain : Quad) : List Quad → List Quad
  | [] => []
  | c :: cs => quadXor (cryptWords rk true c) chain :: cbcDecryptBlocks rk c cs

/-- ECB: the block transform independently on each block (45 R186, R187). -/
def ecbBlocks (rk : Vector Word 32) (dir : Bool) (bs : List Quad) : List Quad := bs.map (cryptWords rk dir)

/-- The output blocks of a call for its input blocks, as words. -/
def outputBlocks (c : Call) (bs : List Quad) : List Quad :=
  let rk := keyExpand (block16 c.key)
  let iv := words (block16 c.iv)
  match c.mode, c.direction with
  | .ecb, .encrypt => ecbBlocks rk false bs
  | .ecb, .decrypt => ecbBlocks rk true bs
  | .cbc, .encrypt => cbcEncryptBlocks rk iv bs
  | .cbc, .decrypt => cbcDecryptBlocks rk iv bs

/-- The value a call returns, as a pure function of the call: what engine and driver together compute
(45 R186 to R189; 92 D1). -/
def callResult (c : Call) : DriverResult Bytes :=
  (checkLengths c).bind fun _ =>
    (blockInput c).bind fun s =>
      finishOutput c (joinBlocks ((outputBlocks c ((splitBlocks s).map words)).map bytes))

/-- The default key, the 16 ASCII bytes `GJwsXX_BzW=gJWJW` (45 R206). -/
def defaultKey : Bytes :=
  [0x47#8, 0x4a#8, 0x77#8, 0x73#8, 0x58#8, 0x58#8, 0x5f#8, 0x42#8,
   0x7a#8, 0x57#8, 0x3d#8, 0x67#8, 0x4a#8, 0x57#8, 0x4a#8, 0x57#8]

/-- The default IV, the 16 ASCII bytes `ZkR_SiNoSOFT=568` (45 R206). -/
def defaultIv : Bytes :=
  [0x5a#8, 0x6b#8, 0x52#8, 0x5f#8, 0x53#8, 0x69#8, 0x4e#8, 0x6f#8,
   0x53#8, 0x4f#8, 0x46#8, 0x54#8, 0x3d#8, 0x35#8, 0x36#8, 0x38#8]

/-- The facade's call: padding enabled (45 R201), an absent key or IV selects the default (45 R199, R206). -/
def facadeCall (m : Mode) (d : Direction) (message : Bytes) (iv key : Option Bytes) : Call where
  mode := m
  direction := d
  paddingEnabled := true
  scheduleReady := false
  key := key.getD defaultKey
  iv := iv.getD defaultIv
  message := message

/-- The encrypting call of the facade: string to bytes before everything else (45 R192, R200). -/
def facadeEncryptCall (m : Mode) (plaintext : Text) (iv key : Option Bytes) : DriverResult Call :=
  (utf8Encode plaintext).map fun b => facadeCall m .encrypt b iv key

/-- The decrypting call of the facade: base64 decoding before everything else (45 R192, R200). -/
def facadeDecryptCall (m : Mode) (cipherB64 : Text) (iv key : Option Bytes) : DriverResult Call :=
  (base64Decode cipherB64).map fun b => facadeCall m .decrypt b iv key

/-- Encrypt through the facade, in either mode: base64 text of the ciphertext (45 R200). -/
def facadeEncrypt (m : Mode) (plaintext : Text) (iv key : Option Bytes) : DriverResult Text :=
  (facadeEncryptCall m plaintext iv key).bind fun c => (callResult c).map base64Encode

/-- Decrypt through the facade, in either mode (45 R200). -/
def facadeDecrypt (m : Mode) (cipherB64 : Text) (iv key : Option Bytes) : DriverResult Text :=
  (facadeDecryptCall m cipherB64 iv key).bind fun c => (callResult c).bind utf8Decode

/-- `encryptECB(plaintext, key?)` (45 R199). -/
def encryptECB (plaintext : Text) (key : Option Bytes) : DriverResult Text := facadeEncrypt .ecb plaintext none key

/-- `decryptECB(cipherB64, key?)` (45 R199). -/
def decryptECB (cipherB64 : Text) (key : Option Bytes) : DriverResult Text := facadeDecrypt .ecb cipherB64 none key

/-- `encryptCBC(plaintext, iv?, key?)`: "IV before key" (45 R199). -/
def encryptCBC (plaintext : Text) (iv key : Option Bytes) : DriverResult Text := facadeEncrypt .cbc plaintext iv key

/-- `decryptCBC(cipherB64, iv?, key?)` (45 R199). -/
def decryptCBC (cipherB64 : Text) (iv key : Option Bytes) : DriverResult Text := facadeDecrypt .cbc cipherB64 iv key

end Sys2Proof.Machine
end

