-- ==== Sys2Proof/Safety.lean ====
section
/-! DEFINITION. What claims are stated in terms of: the invariants of spec/10_state.md R41, the host that keeps to
the interface (20 R64), and what a host can see of the engine (10 R38). -/

namespace Sys2Proof.Machine

open Sys2Proof

/-- The sequencer's invariants: 10 R41 (b), (c), (d), (f), and "`op` ... is `00` otherwise" of R28. R41 (a) is the
definition of `busy`. -/
def seqInv (e : Engine) : Prop :=
  (e.seq.phase = .idle → e.seq.rnd = 0 ∧ e.seq.op = 0b00#2 ∧ e.x = quadZero ∧ e.csave = quadZero) ∧
  (e.seq.phase = .kexp → e.seq.op = 0b00#2 ∧ e.keyValid = false ∧ e.done = false) ∧
  (e.seq.phase = .crypt → e.keyValid = true ∧ e.done = false ∧ (opMode e.seq.op = true → e.ivValid = true)) ∧
  (e.csave ≠ quadZero → e.seq.phase = .crypt ∧ e.seq.op = 0b11#2)

/-- The schedule's invariant: 10 R41 (e), that a valid schedule is `KeyExpand` of some key, with what it needs
while a `KEYEXP` runs (41 R131: the window is `K[r..r+3]` and the words written so far are subkeys). -/
def scheduleInv (e : Engine) : Prop :=
  (e.seq.phase ≠ .kexp → e.keyValid = true → ∃ mk, e.rk = keyExpandWords mk) ∧
  (e.seq.phase = .kexp →
    ∃ mk, e.x = kexpWindow mk e.seq.rnd.val ∧
      ∀ i : Fin 32, i.val < e.seq.rnd.val → e.rk[i.val] = (keyExpandWords mk)[i.val])

/-- The invariant of the machine (10 R41). -/
def stateInv (s : State) : Prop := seqInv s.engine ∧ scheduleInv s.engine

/-- A bus event that is an action of the interface (20 R64; 00 R11; 70 R260). -/
def eventAllowed : BusEvent → Bool
  | .read off bytes => bytes == 4 && off % 4 == 0 && decide (off < 256)
  | .write off bytes _ => bytes == 4 && off % 4 == 0 && decide (off < 256)
  | .poll => true
  | .observeIrq => true
  | .reset => true

/-- The outside world keeps to the interface. -/
def hostObeys (s : State) : Prop := ∀ ev ∈ s.pending, eventAllowed ev = true

/-- What the host can see of the engine: `CTRL`, `STATUS`, `IV`, `DIN`, `DOUT` (20 R72). -/
def sameView (a b : Engine) : Prop :=
  a.ctrl = b.ctrl ∧ a.done = b.done ∧ a.keyValid = b.keyValid ∧ a.ivValid = b.ivValid ∧ a.err = b.err ∧
  a.keyw = b.keyw ∧ a.ivw = b.ivw ∧ a.dinw = b.dinw ∧ a.iv = b.iv ∧ a.din = b.din ∧ a.dout = b.dout ∧
  busy a = busy b

/-- What a command in progress works on (10 R38; 42 R142: "nothing a host can write while busy"). -/
def sameDatapath (a b : Engine) : Prop :=
  a.seq = b.seq ∧ a.x = b.x ∧ a.csave = b.csave ∧ a.rk = b.rk ∧ a.chain = b.chain ∧ a.dout = b.dout ∧
  a.keyValid = b.keyValid ∧ a.ivValid = b.ivValid

end Sys2Proof.Machine
end

