-- ==== Sys2Proof/Certificates/Slice0/Obligations.lean ====
section
/-! DEFINITION. The statements for the provers, from the numbered rules of spec/. `exec i s` is the host writing the
word of `i` to `CMD` in `s`; `engineSteps n` is `n` engine steps with nothing between them. -/

open Sys2Proof Sys2Proof.Machine

/-! ## Encoding and decode -/

/-- Words written out from the opcode map of 30 R93 and the examples of 60 R225: what the decoder reads from them,
directly and through the table's bit numbering. -/
def Obligations.DecodeReadsTableWords : Prop :=
  decodeTableWord 32 0x00000000 = some .nop ∧ decodeTableWord 32 0x00000001 = some .keyexp ∧
  decodeTableWord 32 0x00000002 = some .ivload ∧ decodeTableWord 32 0x00000003 = some .zero ∧
  decodeTableWord 32 0x00000008 = some .ecbEnc ∧ decodeTableWord 32 0x00000009 = some .ecbDec ∧
  decodeTableWord 32 0x0000000A = some .cbcEnc ∧ decodeTableWord 32 0x0000000B = some .cbcDec ∧
  decodeTableWord 32 0x00000004 = none ∧ decodeTableWord 32 0x0000000C = none ∧
  decode 0x00000011#32 = .error .reservedEncoding ∧ decode 0x80000001#32 = .error .reservedEncoding

/-- 30 R93: the whole opcode map, the eight values and the three rows of reserved values. -/
def Obligations.DecodeFollowsOpcodeMap : Prop :=
  ∀ w : Word,
    (w = 0x00000000#32 → decode w = .ok .nop) ∧ (w = 0x00000001#32 → decode w = .ok .keyexp) ∧
    (w = 0x00000002#32 → decode w = .ok .ivload) ∧ (w = 0x00000003#32 → decode w = .ok .zero) ∧
    (w = 0x00000008#32 → decode w = .ok .ecbEnc) ∧ (w = 0x00000009#32 → decode w = .ok .ecbDec) ∧
    (w = 0x0000000A#32 → decode w = .ok .cbcEnc) ∧ (w = 0x0000000B#32 → decode w = .ok .cbcDec) ∧
    (4 ≤ w.toNat ∧ w.toNat ≤ 7 ∨ 12 ≤ w.toNat ∧ w.toNat ≤ 15 ∨ w.extractLsb' 4 28 ≠ 0#28 →
      decode w = .error .reservedEncoding)

/-- 30 R90 with R93: a word decodes to a command exactly when it is in the format `CMD` (bits 31:4 zero, bit 2
zero), and then it is that command's encoding. -/
def Obligations.FormatDecidesDecode : Prop :=
  ∀ w : Word, (wordWellFormed w = true ↔ ∃ i, decode w = .ok i ∧ encode i = w)

/-! ## A write to CMD: order of checks, rejection -/

/-- 30 R91: a write to `CMD` is rejected with `E_BUSY` while busy (the value not examined), else with `E_OP` for a
value that is no command, else it runs the command's own rule. -/
def Obligations.CmdWriteChecksThenDispatches : Prop :=
  ∀ (v : Word) (s : State),
    (busy s.engine = true → busWrite 0x08 4 v s = .next (s.withEngine (raise .eBusy s.engine))) ∧
    (busy s.engine = false → (∀ i, v ≠ encode i) →
      busWrite 0x08 4 v s = .next (s.withEngine (raise .eOp s.engine))) ∧
    (∀ i, busy s.engine = false → v = encode i → busWrite 0x08 4 v s = exec i s)

/-- 60 R223: for one `CMD` write exactly one flag is raised, the first in the order `E_BUSY`, `E_OP`, `E_KEYLEN` or
`E_IVLEN`, `E_NOKEY`, `E_NOIV`, `E_DLEN`; where no condition holds no error flag is set. -/
def Obligations.OneFlagInPriorityOrder : Prop :=
  ∀ (v : Word) (s : State),
    let e := s.engine
    let first : Option Err :=
      if busy e then some .eBusy
      else if v ∉ [0x0#32, 0x1#32, 0x2#32, 0x3#32, 0x8#32, 0x9#32, 0xA#32, 0xB#32] then some .eOp
      else if v = 0x1#32 ∧ e.keyw ≠ 0b1111#4 then some .eKeyLen
      else if v = 0x2#32 ∧ e.ivw ≠ 0b1111#4 then some .eIvLen
      else if 8 ≤ v.toNat ∧ e.keyValid = false then some .eNoKey
      else if 10 ≤ v.toNat ∧ e.ivValid = false then some .eNoIv
      else if 8 ≤ v.toNat ∧ e.dinw ≠ 0b1111#4 then some .eDLen
      else none
    ∃ e' : Engine,
      busWrite 0x08 4 v s = .next (s.withEngine e') ∧
      (∀ x, first = some x → e' = raise x e) ∧
      (first = none → v ≠ 0x3#32 → e'.err = e.err)

/-- 60 R222: `raise E_X` sets that flag, in `STATUS` the bit of its code, and nothing else changes; `irq` follows
by 10 R36. -/
def Obligations.RejectionSetsOnlyItsFlag : Prop :=
  ∀ (x : Err) (e : Engine),
    (raise x e).err.get x = true ∧
    { raise x e with err := e.err } = e ∧
    (∀ b, b < 32 → (statusWord (raise x e)).getLsbD b = (decide (b = x.code) || (statusWord e).getLsbD b)) ∧
    irq (raise x e) = (irq e || e.ctrl.eie)

/-- 60 R224: while busy every `CMD` write is dropped with `E_BUSY` only; from an idle engine only `KEYEXP` and the
four block commands make the engine busy. -/
def Obligations.BusyDropsEveryCommand : Prop :=
  (∀ (v : Word) (s : State), busy s.engine = true →
    busWrite 0x08 4 v s =
      .next (s.withEngine { s.engine with err := { s.engine.err with busy := true } })) ∧
  (∀ (v : Word) (s s' : State), busy s.engine = false → busWrite 0x08 4 v s = .next s' → busy s'.engine = true →
    v ∈ [0x1#32, 0x8#32, 0x9#32, 0xA#32, 0xB#32])

/-- 60 R225: a `CMD` write, while idle, of 4 to 7, of 0xC to 0xF or of a value with a 1 in bits 31:4 sets `E_OP` and
changes nothing else. -/
def Obligations.ReservedWordRaisesEOp : Prop :=
  ∀ (v : Word) (s : State), busy s.engine = false →
    (4 ≤ v.toNat ∧ v.toNat ≤ 7 ∨ 12 ≤ v.toNat ∧ v.toNat ≤ 15 ∨ v.extractLsb' 4 28 ≠ 0#28) →
    busWrite 0x08 4 v s = .next (s.withEngine { s.engine with err := { s.engine.err with op := true } })

/-! ## The commands, each by its whole rule -/

/-- 44 R170, NOP: accepted when idle with no effect at all; `E_BUSY` when busy. -/
def Obligations.NopDoesNothing : Prop :=
  ∀ s : State,
    (busy s.engine = false → exec .nop s = .next s) ∧
    (busy s.engine = true →
      exec .nop s = .next (s.withEngine { s.engine with err := { s.engine.err with busy := true } }))

/-- 44 R171, ZERO: accepted when idle, and then every element of the engine has its reset value; `E_BUSY` when busy,
wiping nothing. -/
def Obligations.ZeroRestoresReset : Prop :=
  ∀ s : State,
    (busy s.engine = false → exec .zero s = .next (s.withEngine Engine.reset)) ∧
    (busy s.engine = true →
      exec .zero s = .next (s.withEngine { s.engine with err := { s.engine.err with busy := true } }))

/-- 43 R150, IVLOAD: accepted when idle with `IVW = 1111`: the chain starts as IV, `IVVALID` and `DONE` set, no
engine step; `E_IVLEN` for another mask; `E_BUSY` when busy. -/
def Obligations.IvloadLoadsChain : Prop :=
  ∀ s : State,
    (busy s.engine = false → s.engine.ivw = 0b1111#4 →
      exec .ivload s = .next (s.withEngine { s.engine with chain := s.engine.iv, ivValid := true, done := true })) ∧
    (busy s.engine = false → s.engine.ivw ≠ 0b1111#4 →
      exec .ivload s = .next (s.withEngine { s.engine with err := { s.engine.err with ivLen := true } })) ∧
    (busy s.engine = true →
      exec .ivload s = .next (s.withEngine { s.engine with err := { s.engine.err with busy := true } }))

/-- 41 R130, KEYEXP: accepted when idle with `KEYW = 1111` with the acceptance effects listed there; busy, with
`KEYVALID` and `DONE` 0, for exactly 32 engine steps; then `RK` is `KeyExpand` of the key at acceptance. `E_KEYLEN` for
another mask; `E_BUSY` when busy. -/
def Obligations.KeyexpDerivesSchedule : Prop :=
  ∀ s : State,
    let a : Engine :=
      { s.engine with
        x := quadXor s.engine.key ⟨0xA3B1BAC6#32, 0x56AA3350#32, 0x677D9197#32, 0xB27022DC#32⟩
        key := quadZero, keyw := 0b0000#4, keyValid := false, done := false, seq := ⟨.kexp, 0, 0b00#2⟩ }
    (busy s.engine = false → s.engine.keyw = 0b1111#4 → exec .keyexp s = .next (s.withEngine a)) ∧
    (∀ n, n < 32 → busy (engineSteps n a) = true ∧ (engineSteps n a).keyValid = false ∧
      (engineSteps n a).done = false) ∧
    engineSteps 32 a =
      { s.engine with
        key := quadZero, keyw := 0b0000#4, keyValid := true, done := true, x := quadZero
        rk := keyExpand (bytes s.engine.key), seq := ⟨.idle, 0, 0b00#2⟩ } ∧
    (busy s.engine = false → s.engine.keyw ≠ 0b1111#4 →
      exec .keyexp s = .next (s.withEngine { s.engine with err := { s.engine.err with keyLen := true } })) ∧
    (busy s.engine = true →
      exec .keyexp s = .next (s.withEngine { s.engine with err := { s.engine.err with busy := true } }))

/-- 43 R151, ECB.ENC: accepted when idle with a valid key and `DINW = 1111`; busy for exactly 32 engine steps; then
`bytes(DOUT) = Crypt(RK, 0, bytes(DIN at acceptance))`. Rejected with `E_NOKEY`, `E_DLEN` or `E_BUSY` otherwise. -/
def Obligations.EcbEncEncryptsBlock : Prop :=
  ∀ s : State,
    let a : Engine :=
      { s.engine with x := s.engine.din, dinw := 0b0000#4, done := false, seq := ⟨.crypt, 0, 0b00#2⟩ }
    (busy s.engine = false → s.engine.keyValid = true → s.engine.dinw = 0b1111#4 →
      exec .ecbEnc s = .next (s.withEngine a)) ∧
    (∀ n, n < 32 → busy (engineSteps n a) = true ∧ (engineSteps n a).dout = s.engine.dout) ∧
    (∃ d : Quad, bytes d = crypt s.engine.rk false (bytes s.engine.din) ∧
      engineSteps 32 a =
        { s.engine with
          dout := d, dinw := 0b0000#4, done := true, x := quadZero, csave := quadZero
          seq := ⟨.idle, 0, 0b00#2⟩ }) ∧
    (busy s.engine = false → s.engine.keyValid = false →
      exec .ecbEnc s = .next (s.withEngine { s.engine with err := { s.engine.err with noKey := true } })) ∧
    (busy s.engine = false → s.engine.keyValid = true → s.engine.dinw ≠ 0b1111#4 →
      exec .ecbEnc s = .next (s.withEngine { s.engine with err := { s.engine.err with dLen := true } })) ∧
    (busy s.engine = true →
      exec .ecbEnc s = .next (s.withEngine { s.engine with err := { s.engine.err with busy := true } }))

/-- 43 R152, ECB.DEC: as ECB.ENC with the subkeys in reverse order: `bytes(DOUT) = Crypt(RK, 1, bytes(DIN))`. -/
def Obligations.EcbDecDecryptsBlock : Prop :=
  ∀ s : State,
    let a : Engine :=
      { s.engine with x := s.engine.din, dinw := 0b0000#4, done := false, seq := ⟨.crypt, 0, 0b01#2⟩ }
    (busy s.engine = false → s.engine.keyValid = true → s.engine.dinw = 0b1111#4 →
      exec .ecbDec s = .next (s.withEngine a)) ∧
    (∀ n, n < 32 → busy (engineSteps n a) = true ∧ (engineSteps n a).dout = s.engine.dout) ∧
    (∃ d : Quad, bytes d = crypt s.engine.rk true (bytes s.engine.din) ∧
      engineSteps 32 a =
        { s.engine with
          dout := d, dinw := 0b0000#4, done := true, x := quadZero, csave := quadZero
          seq := ⟨.idle, 0, 0b00#2⟩ }) ∧
    (busy s.engine = false → s.engine.keyValid = false →
      exec .ecbDec s = .next (s.withEngine { s.engine with err := { s.engine.err with noKey := true } })) ∧
    (busy s.engine = false → s.engine.keyValid = true → s.engine.dinw ≠ 0b1111#4 →
      exec .ecbDec s = .next (s.withEngine { s.engine with err := { s.engine.err with dLen := true } })) ∧
    (busy s.engine = true →
      exec .ecbDec s = .next (s.withEngine { s.engine with err := { s.engine.err with busy := true } }))

/-- 43 R153, CBC.ENC: accepted when idle with a valid key, a valid chain and `DINW = 1111`; after 32 engine steps
`C = Crypt(RK, 0, P ^ chain)` is in `DOUT` and in `CHAIN`. Rejected with `E_NOKEY`, `E_NOIV`, `E_DLEN` or `E_BUSY`. -/
def Obligations.CbcEncChainsCiphertext : Prop :=
  ∀ s : State,
    let a : Engine :=
      { s.engine with
        x := quadXor s.engine.din s.engine.chain, dinw := 0b0000#4, done := false, seq := ⟨.crypt, 0, 0b10#2⟩ }
    (busy s.engine = false → s.engine.keyValid = true → s.engine.ivValid = true → s.engine.dinw = 0b1111#4 →
      exec .cbcEnc s = .next (s.withEngine a)) ∧
    (∀ n, n < 32 → busy (engineSteps n a) = true ∧ (engineSteps n a).dout = s.engine.dout ∧
      (engineSteps n a).chain = s.engine.chain) ∧
    (∃ c : Quad, bytes c = crypt s.engine.rk false (bytes (quadXor s.engine.din s.engine.chain)) ∧
      engineSteps 32 a =
        { s.engine with
          dout := c, chain := c, dinw := 0b0000#4, done := true, x := quadZero, csave := quadZero
          seq := ⟨.idle, 0, 0b00#2⟩ }) ∧
    (busy s.engine = false → s.engine.keyValid = false →
      exec .cbcEnc s = .next (s.withEngine { s.engine with err := { s.engine.err with noKey := true } })) ∧
    (busy s.engine = false → s.engine.keyValid = true → s.engine.ivValid = false →
      exec .cbcEnc s = .next (s.withEngine { s.engine with err := { s.engine.err with noIv := true } })) ∧
    (busy s.engine = false → s.engine.keyValid = true → s.engine.ivValid = true → s.engine.dinw ≠ 0b1111#4 →
      exec .cbcEnc s = .next (s.withEngine { s.engine with err := { s.engine.err with dLen := true } })) ∧
    (busy s.engine = true →
      exec .cbcEnc s = .next (s.withEngine { s.engine with err := { s.engine.err with busy := true } }))

/-- 43 R154, CBC.DEC: accepted when idle with a valid key, a valid chain and `DINW = 1111`; after 32 engine steps
`bytes(DOUT) = Crypt(RK, 1, C) ^ chain` and `CHAIN` is the ciphertext block `C`. Rejected as CBC.ENC. -/
def Obligations.CbcDecChainsCiphertext : Prop :=
  ∀ s : State,
    let a : Engine :=
      { s.engine with
        x := s.engine.din, csave := s.engine.din, dinw := 0b0000#4, done := false, seq := ⟨.crypt, 0, 0b11#2⟩ }
    (busy s.engine = false → s.engine.keyValid = true → s.engine.ivValid = true → s.engine.dinw = 0b1111#4 →
      exec .cbcDec s = .next (s.withEngine a)) ∧
    (∀ n, n < 32 → busy (engineSteps n a) = true ∧ (engineSteps n a).dout = s.engine.dout ∧
      (engineSteps n a).chain = s.engine.chain ∧ (engineSteps n a).csave = s.engine.din) ∧
    (∃ y : Quad, bytes y = crypt s.engine.rk true (bytes s.engine.din) ∧
      engineSteps 32 a =
        { s.engine with
          dout := quadXor y s.engine.chain, chain := s.engine.din, dinw := 0b0000#4, done := true
          x := quadZero, csave := quadZero, seq := ⟨.idle, 0, 0b00#2⟩ }) ∧
    (busy s.engine = false → s.engine.keyValid = false →
      exec .cbcDec s = .next (s.withEngine { s.engine with err := { s.engine.err with noKey := true } })) ∧
    (busy s.engine = false → s.engine.keyValid = true → s.engine.ivValid = false →
      exec .cbcDec s = .next (s.withEngine { s.engine with err := { s.engine.err with noIv := true } })) ∧
    (busy s.engine = false → s.engine.keyValid = true → s.engine.ivValid = true → s.engine.dinw ≠ 0b1111#4 →
      exec .cbcDec s = .next (s.withEngine { s.engine with err := { s.engine.err with dLen := true } })) ∧
    (busy s.engine = true →
      exec .cbcDec s = .next (s.withEngine { s.engine with err := { s.engine.err with busy := true } }))

/-- The frame of the commands (the lists "Not touched" of 41 R130 and 43 R150 to R154, and 44 R170): what each leaves
unchanged whenever it gives a next state, accepted or rejected. The outside world's fields never change; what only
`ZERO` writes, what only `KEYEXP` and `ZERO` write, and so on. -/
def Obligations.CommandsFrame : Prop :=
  ∀ (i : Instr) (s s' : State), exec i s = .next s' →
    (s'.pending = s.pending ∧ s'.readLog = s.readLog ∧ s'.irqLog = s.irqLog ∧ s'.budget = s.budget ∧
      s'.ticks = s.ticks) ∧
    (i ≠ .zero → s'.engine.ctrl = s.engine.ctrl ∧ s'.engine.iv = s.engine.iv ∧ s'.engine.ivw = s.engine.ivw ∧
      s'.engine.din = s.engine.din ∧ s'.engine.dout = s.engine.dout ∧ s'.engine.rk = s.engine.rk) ∧
    (i ≠ .zero → i ≠ .keyexp → s'.engine.key = s.engine.key ∧ s'.engine.keyw = s.engine.keyw ∧
      s'.engine.keyValid = s.engine.keyValid) ∧
    (i ≠ .zero → i ≠ .ivload → s'.engine.chain = s.engine.chain ∧ s'.engine.ivValid = s.engine.ivValid) ∧
    (i = .nop ∨ i = .ivload ∨ i = .keyexp → s'.engine.dinw = s.engine.dinw) ∧
    (i ≠ .zero → i ≠ .cbcDec → s'.engine.csave = s.engine.csave) ∧
    (i = .nop ∨ i = .ivload → s'.engine.seq = s.engine.seq ∧ s'.engine.x = s.engine.x) ∧
    (i = .nop → s'.engine.done = s.engine.done)

/-! ## The engine step and the sequencer -/

/-- 41 R131: the engine step in phase `KEXP`, on every state in that phase, the completing step included. -/
def Obligations.KexpStepDoesOneRound : Prop :=
  ∀ e : Engine, e.seq.phase = .kexp →
    let t := e.x.w0 ^^^ tKey (e.x.w1 ^^^ e.x.w2 ^^^ e.x.w3 ^^^ ck e.seq.rnd.val)
    (∀ r : Fin 32, r.val = e.seq.rnd.val + 1 →
      engineStep e =
        { e with
          rk := e.rk.set e.seq.rnd.val t, x := ⟨e.x.w1, e.x.w2, e.x.w3, t⟩, seq := { e.seq with rnd := r } }) ∧
    (e.seq.rnd = 31 →
      engineStep e =
        { e with
          rk := e.rk.set 31 t, x := quadZero, seq := ⟨.idle, 0, 0b00#2⟩, keyValid := true, done := true })

/-- 42 R142: the engine step in phase `CRYPT`, on every state in that phase: one round with the subkey of the
command's direction, and in the completing step the three cases of what `DOUT` and `CHAIN` become. -/
def Obligations.CryptStepDoesOneRound : Prop :=
  ∀ e : Engine, e.seq.phase = .crypt →
    let k := if e.seq.op.getLsbD 0 then e.rk[31 - e.seq.rnd.val] else e.rk[e.seq.rnd.val]
    let t := e.x.w0 ^^^ tData (e.x.w1 ^^^ e.x.w2 ^^^ e.x.w3 ^^^ k)
    let y : Quad := ⟨t, e.x.w3, e.x.w2, e.x.w1⟩
    let idle : Engine :=
      { e with x := quadZero, csave := quadZero, seq := ⟨.idle, 0, 0b00#2⟩, done := true }
    (∀ r : Fin 32, r.val = e.seq.rnd.val + 1 →
      engineStep e = { e with x := ⟨e.x.w1, e.x.w2, e.x.w3, t⟩, seq := { e.seq with rnd := r } }) ∧
    (e.seq.rnd = 31 → e.seq.op.getLsbD 1 = false → engineStep e = { idle with dout := y }) ∧
    (e.seq.rnd = 31 → e.seq.op = 0b10#2 → engineStep e = { idle with dout := y, chain := y }) ∧
    (e.seq.rnd = 31 → e.seq.op = 0b11#2 →
      engineStep e = { idle with dout := quadXor y e.chain, chain := e.csave })

/-- 00 R11 with 70 R266, and log 1 for how the model holds the interleaving: the engine moves when it is busy and no
host action comes before it; an idle engine never moves; with nothing pending and the engine idle, nothing happens. -/
def Obligations.AgentsTakeTurns : Prop :=
  ∀ s : State,
    (busy s.engine = true → (s.pending = [] ∨ s.budget = some 0) →
      step s = .next { s with engine := engineStep s.engine, budget := none, ticks := s.ticks + 1 }) ∧
    (busy s.engine = false → s.pending = [] → step s = .next s) ∧
    (∀ ev rest, busy s.engine = false → s.pending = ev :: rest →
      step s = performEvent ev { s with pending := rest, budget := none, ticks := s.ticks + 1 }) ∧
    (∀ ev rest n, busy s.engine = true → s.pending = ev :: rest → s.budget = some (n + 1) →
      step s = performEvent ev { s with pending := rest, budget := some n, ticks := s.ticks + 1 })

/-- 30 R91 at the level of a step: where the host's write of a word to `CMD` is next and the word decodes to the
command `i`, the step is `exec i`, with the event taken from `pending` and the model's own turn fields advanced. -/
def Obligations.StepRunsWrittenCommand : Prop :=
  ∀ (s : State) (w : Word) (i : Instr) (rest : List BusEvent),
    decode w = .ok i → s.pending = .write 0x08 4 w :: rest →
    (busy s.engine = false →
      step s = exec i { s with pending := rest, budget := none, ticks := s.ticks + 1 }) ∧
    (∀ n, busy s.engine = true → s.budget = some (n + 1) →
      step s = exec i { s with pending := rest, budget := some n, ticks := s.ticks + 1 })

/-- 44 R173: the sequencer's transition table. Every step leaves `SEQ` alone or is one of the table's rows. -/
def Obligations.SequencerTransitions : Prop :=
  ∀ s s' : State, step s = .next s' →
    s'.engine.seq = s.engine.seq ∨
    (∃ rest, busy s.engine = false ∧ s.pending = .write 0x08 4 0x1#32 :: rest ∧
      s'.engine.seq = ⟨.kexp, 0, 0b00#2⟩) ∨
    (∃ v rest, busy s.engine = false ∧ s.pending = .write 0x08 4 v :: rest ∧
      v ∈ [0x8#32, 0x9#32, 0xA#32, 0xB#32] ∧ s'.engine.seq = ⟨.crypt, 0, v.extractLsb' 0 2⟩) ∨
    (∃ rest, busy s.engine = false ∧ s.pending = .write 0x08 4 0x3#32 :: rest ∧
      s'.engine.seq = ⟨.idle, 0, 0b00#2⟩) ∨
    (busy s.engine = true ∧ s'.engine = engineStep s.engine ∧ s'.engine.seq.phase = s.engine.seq.phase ∧
      s'.engine.seq.op = s.engine.seq.op ∧ s'.engine.seq.rnd.val = s.engine.seq.rnd.val + 1) ∨
    (busy s.engine = true ∧ s'.engine = engineStep s.engine ∧ s.engine.seq.rnd = 31 ∧
      s'.engine.seq = ⟨.idle, 0, 0b00#2⟩) ∨
    (∃ rest, s.pending = .reset :: rest ∧ s'.engine.seq = ⟨.idle, 0, 0b00#2⟩)

/-! ## The register window -/

/-- 20 R64: the only host actions are 32-bit accesses at offsets that are multiples of 4 within the window; every
other access is refused, read or write, in every state. -/
def Obligations.OnlyAlignedWordAccessesExist : Prop :=
  ∀ (off size : Nat) (v : Word) (s : State),
    ((size = 4 ∧ off % 4 = 0 ∧ off < 256) →
      (∃ s', busRead off size s = .next s') ∧ (∃ s', busWrite off size v s = .next s')) ∧
    (¬(size = 4 ∧ off % 4 = 0 ∧ off < 256) →
      (∃ r, busRead off size s = .refused r) ∧ (∃ r, busWrite off size v s = .refused r))

/-- 20 R61: the slot map, and every other slot reserved: a read returns 0, a write is ignored, nothing changes. -/
def Obligations.SlotMapAndReservedSlots : Prop :=
  (slotAt 0x00 4 = .ok .ctrl ∧ slotAt 0x04 4 = .ok .status ∧ slotAt 0x08 4 = .ok .cmd) ∧
  (∀ i : Fin 4, slotAt (0x10 + 4 * i.val) 4 = .ok (.key i) ∧ slotAt (0x20 + 4 * i.val) 4 = .ok (.iv i) ∧
    slotAt (0x30 + 4 * i.val) 4 = .ok (.din i) ∧ slotAt (0x40 + 4 * i.val) 4 = .ok (.dout i)) ∧
  (∀ (off : Nat) (v : Word) (s : State), off % 4 = 0 → off < 256 → (off = 0x0C ∨ 0x50 ≤ off) →
    busRead off 4 s = .next { s with readLog := s.readLog ++ [0#32] } ∧ busWrite off 4 v s = .next s)

/-- 10 R31: `CTRL`. A write stores bits 0 and 1 and nothing else; a read returns the two bits, zeros elsewhere;
both at any time, busy or not. `DIE` asserts `irq` while `DONE` is 1, `EIE` while any error flag is; both reset to
0. -/
def Obligations.CtrlHoldsTwoEnables : Prop :=
  ∀ (s : State) (v : Word),
    busWrite 0x00 4 v s =
      .next (s.withEngine { s.engine with ctrl := ⟨v.getLsbD 0, v.getLsbD 1⟩ }) ∧
    ∃ w : Word, busRead 0x00 4 s = .next { s with readLog := s.readLog ++ [w] } ∧
      w.getLsbD 0 = s.engine.ctrl.die ∧ w.getLsbD 1 = s.engine.ctrl.eie ∧ (∀ b, 2 ≤ b → w.getLsbD b = false) ∧
      (s.engine.ctrl.die = true → s.engine.done = true → irq s.engine = true) ∧
      (∀ x, s.engine.ctrl.eie = true → s.engine.err.get x = true → irq s.engine = true) ∧
      State.reset.engine.ctrl.die = false ∧ State.reset.engine.ctrl.eie = false

/-- 10 R32, the read side: `RegRead(0x04)` returns the word of the table's fields and changes nothing. -/
def Obligations.StatusReadsItsFields : Prop :=
  ∀ s : State, ∃ w : Word,
    busRead 0x04 4 s = .next { s with readLog := s.readLog ++ [w] } ∧
    w.getLsbD 0 = decide (s.engine.seq.phase ≠ .idle) ∧ w.getLsbD 1 = s.engine.done ∧
    w.getLsbD 2 = s.engine.keyValid ∧ w.getLsbD 3 = s.engine.ivValid ∧
    (w.getLsbD 8 = s.engine.err.busy ∧ w.getLsbD 9 = s.engine.err.op ∧ w.getLsbD 10 = s.engine.err.keyLen ∧
      w.getLsbD 11 = s.engine.err.ivLen ∧ w.getLsbD 12 = s.engine.err.dLen ∧
      w.getLsbD 13 = s.engine.err.noKey ∧ w.getLsbD 14 = s.engine.err.noIv) ∧
    (∀ i, i < 4 → w.getLsbD (16 + i) = s.engine.keyw.getLsbD i ∧ w.getLsbD (20 + i) = s.engine.ivw.getLsbD i ∧
      w.getLsbD (24 + i) = s.engine.dinw.getLsbD i) ∧
    (∀ b, (4 ≤ b ∧ b ≤ 7) ∨ b = 15 ∨ 28 ≤ b → w.getLsbD b = false)

/-- 10 R32, the write side: write 1 to clear on bits 1 and 8 to 14, at any time; every other bit is ignored and every
other element of the engine unchanged. -/
def Obligations.StatusWriteClearsOnes : Prop :=
  ∀ (s : State) (v : Word), ∃ e : Engine,
    busWrite 0x04 4 v s = .next (s.withEngine e) ∧
    e.done = (s.engine.done && !v.getLsbD 1) ∧
    (e.err.busy = (s.engine.err.busy && !v.getLsbD 8) ∧ e.err.op = (s.engine.err.op && !v.getLsbD 9) ∧
      e.err.keyLen = (s.engine.err.keyLen && !v.getLsbD 10) ∧
      e.err.ivLen = (s.engine.err.ivLen && !v.getLsbD 11) ∧ e.err.dLen = (s.engine.err.dLen && !v.getLsbD 12) ∧
      e.err.noKey = (s.engine.err.noKey && !v.getLsbD 13) ∧ e.err.noIv = (s.engine.err.noIv && !v.getLsbD 14)) ∧
    { e with done := s.engine.done, err := s.engine.err } = s.engine

/-- 20 R72 (10 R21 to R24, R33): what a read of each data slot and of `CMD` returns, busy or not; the read log is all
that changes. -/
def Obligations.DataRegisterReads : Prop :=
  ∀ (s : State) (i : Fin 4),
    busRead (0x10 + 4 * i.val) 4 s = .next { s with readLog := s.readLog ++ [0#32] } ∧
    busRead (0x20 + 4 * i.val) 4 s = .next { s with readLog := s.readLog ++ [quadGet s.engine.iv i] } ∧
    busRead (0x30 + 4 * i.val) 4 s = .next { s with readLog := s.readLog ++ [quadGet s.engine.din i] } ∧
    busRead (0x40 + 4 * i.val) 4 s = .next { s with readLog := s.readLog ++ [quadGet s.engine.dout i] } ∧
    busRead 0x08 4 s = .next { s with readLog := s.readLog ++ [0#32] }

/-- 10 R21 to R25, the host's writes: word `i` of `KEY`, `IV`, `DIN` takes the value, its mask bit is set, the other
words and mask bits and every other element are unchanged, busy or not; a write to `DOUT` is ignored. -/
def Obligations.StagingWritesStoreAndMark : Prop :=
  ∀ (s : State) (i : Fin 4) (v : Word),
    (∃ (q : Quad) (m : BitVec 4),
      busWrite (0x10 + 4 * i.val) 4 v s = .next (s.withEngine { s.engine with key := q, keyw := m }) ∧
      (∀ j, quadGet q j = if j = i then v else quadGet s.engine.key j) ∧
      (∀ j : Fin 4, m.getLsbD j.val = (decide (j = i) || s.engine.keyw.getLsbD j.val))) ∧
    (∃ (q : Quad) (m : BitVec 4),
      busWrite (0x20 + 4 * i.val) 4 v s = .next (s.withEngine { s.engine with iv := q, ivw := m }) ∧
      (∀ j, quadGet q j = if j = i then v else quadGet s.engine.iv j) ∧
      (∀ j : Fin 4, m.getLsbD j.val = (decide (j = i) || s.engine.ivw.getLsbD j.val))) ∧
    (∃ (q : Quad) (m : BitVec 4),
      busWrite (0x30 + 4 * i.val) 4 v s = .next (s.withEngine { s.engine with din := q, dinw := m }) ∧
      (∀ j, quadGet q j = if j = i then v else quadGet s.engine.din j) ∧
      (∀ j : Fin 4, m.getLsbD j.val = (decide (j = i) || s.engine.dinw.getLsbD j.val))) ∧
    busWrite (0x40 + 4 * i.val) 4 v s = .next s

/-- 10 R36: `irq` as a function of the two register words:
`irq = (CTRL.DIE & STATUS.DONE) | (CTRL.EIE & (STATUS[14:8] != 0))`. -/
def Obligations.IrqIsALevelOfTheRegisters : Prop :=
  ∀ e : Engine,
    irq e = (((ctrlWord e).getLsbD 0 && (statusWord e).getLsbD 1) ||
      ((ctrlWord e).getLsbD 1 && decide ((statusWord e).extractLsb' 8 7 ≠ 0#7)))

/-! ## Reset -/

/-- 70 R260: the `reset` input, at any time and in any state, a command in progress included, leaves every element
of the engine at its reset value, `irq` 0, whatever the state before. -/
def Obligations.ResetInputFromAnyState : Prop :=
  ∀ s : State, ∃ s' : State,
    performEvent .reset s = .next s' ∧ s'.engine = State.reset.engine ∧ irq s'.engine = false ∧
    s'.pending = s.pending ∧ s'.readLog = s.readLog

/-- 10 R39: the value of every element after reset and after an accepted `ZERO`. -/
def Obligations.ResetValues : Prop :=
  ∀ e : Engine,
    (e = State.reset.engine ∨ (∃ s : State, busy s.engine = false ∧ exec .zero s = .next (s.withEngine e))) →
    ctrlWord e = 0x00000000#32 ∧ statusWord e = 0x00000000#32 ∧ irq e = false ∧
    e.key = ⟨0#32, 0#32, 0#32, 0#32⟩ ∧ e.iv = ⟨0#32, 0#32, 0#32, 0#32⟩ ∧ e.din = ⟨0#32, 0#32, 0#32, 0#32⟩ ∧
    e.dout = ⟨0#32, 0#32, 0#32, 0#32⟩ ∧ (∀ i : Fin 32, e.rk[i.val] = 0#32) ∧
    e.chain = ⟨0#32, 0#32, 0#32, 0#32⟩ ∧ e.seq = ⟨.idle, 0, 0b00#2⟩ ∧ e.x = ⟨0#32, 0#32, 0#32, 0#32⟩ ∧
    e.csave = ⟨0#32, 0#32, 0#32, 0#32⟩

/-- 70 R261: what the reset state means to the host: only `NOP` and `ZERO` are accepted, `KEYEXP` is rejected with
`E_KEYLEN`, `IVLOAD` with `E_IVLEN`, every block command with `E_NOKEY`. -/
def Obligations.ResetAcceptsOnlyNopAndZero : Prop :=
  exec .nop State.reset = .next State.reset ∧ exec .zero State.reset = .next State.reset ∧
  exec .keyexp State.reset = .next (State.reset.withEngine (raise .eKeyLen Engine.reset)) ∧
  exec .ivload State.reset = .next (State.reset.withEngine (raise .eIvLen Engine.reset)) ∧
  ∀ i ∈ [Instr.ecbEnc, .ecbDec, .cbcEnc, .cbcDec],
    exec i State.reset = .next (State.reset.withEngine (raise .eNoKey Engine.reset))

/-! ## Invariants and whole-machine rules -/

/-- 10 R41: every step keeps the state invariants (b) to (f), from every state that has them, whatever the outside
world does and whoever moves. -/
def Obligations.StepKeepsInvariant : Prop :=
  ∀ s s' : State, stateInv s → step s = .next s' → stateInv s'

/-- 10 R41: the invariants hold at reset. -/
def Obligations.ResetMeetsInvariant : Prop := stateInv State.reset

/-- 60 R220 with 20 R64: under a host that keeps to the interface every step answers a next state: no command, no
error and no engine step stops the machine. -/
def Obligations.ObedientHostNeverStops : Prop :=
  ∀ s : State, hostObeys s → ∃ s' : State, step s = .next s' ∧ hostObeys s'

/-- 10 R26 and 41 R133 (c): `RK` changes only by an engine step of `KEYEXP`, an accepted `ZERO` or reset. -/
def Obligations.RoundKeysWrittenOnlyByKeyexp : Prop :=
  ∀ s s' : State, step s = .next s' → s'.engine.rk ≠ s.engine.rk →
    (s.engine.seq.phase = .kexp ∧ s'.engine = engineStep s.engine) ∨
    (∃ rest, busy s.engine = false ∧ s.pending = .write 0x08 4 0x3#32 :: rest) ∨
    (∃ rest, s.pending = .reset :: rest)

/-- 10 R24: `DOUT` changes only in the completing step of a block command (an accepted `ZERO` and reset apart), so a
host never reads a partly written block. -/
def Obligations.OutputPublishedOnlyOnCompletion : Prop :=
  ∀ s s' : State, step s = .next s' → s'.engine.dout ≠ s.engine.dout →
    (s.engine.seq.phase = .crypt ∧ s.engine.seq.rnd = 31 ∧ s'.engine = engineStep s.engine ∧
      s'.engine.done = true) ∨
    (∃ rest, busy s.engine = false ∧ s.pending = .write 0x08 4 0x3#32 :: rest) ∨
    (∃ rest, s.pending = .reset :: rest)

/-- 10 R27: `CHAIN` changes only by an accepted `IVLOAD`, the completing step of a CBC command, an accepted `ZERO` or
reset; ECB commands, `KEYEXP` and `NOP` leave it alone. -/
def Obligations.ChainWrittenOnlyByIvloadAndCbc : Prop :=
  ∀ s s' : State, step s = .next s' → s'.engine.chain ≠ s.engine.chain →
    (∃ rest, busy s.engine = false ∧ s.pending = .write 0x08 4 0x2#32 :: rest ∧
      s'.engine.chain = s.engine.iv) ∨
    (s.engine.seq.phase = .crypt ∧ s.engine.seq.rnd = 31 ∧ s.engine.seq.op.getLsbD 1 = true ∧
      s'.engine = engineStep s.engine) ∨
    (∃ rest, busy s.engine = false ∧ s.pending = .write 0x08 4 0x3#32 :: rest) ∨
    (∃ rest, s.pending = .reset :: rest)

/-- 10 R35: an error flag, once set, is cleared only by the host writing 1 to its bit of `STATUS`, by an accepted
`ZERO` or by reset. -/
def Obligations.ErrorFlagsAreSticky : Prop :=
  ∀ (s s' : State) (x : Err), step s = .next s' → s.engine.err.get x = true → s'.engine.err.get x = false →
    (∃ v rest, s.pending = .write 0x04 4 v :: rest ∧ v.getLsbD x.code = true) ∨
    (∃ rest, busy s.engine = false ∧ s.pending = .write 0x08 4 0x3#32 :: rest) ∨
    (∃ rest, s.pending = .reset :: rest)

/-- 20 R70 and 10 R38: while a command runs, no bus event but reset touches what it works on, and engines that agree
on what a command works on go on agreeing for any number of engine steps, whatever their staging registers, flags
and masks hold. -/
def Obligations.RunningCommandIsUndisturbed : Prop :=
  (∀ (s s' : State) (ev : BusEvent), busy s.engine = true → ev ≠ .reset → performEvent ev s = .next s' →
    sameDatapath s.engine s'.engine) ∧
  (∀ (a b : Engine) (n : Nat), sameDatapath a b → sameDatapath (engineSteps n a) (engineSteps n b))

/-- 10 R38: no host action reads `SEQ.rnd`, `SEQ.op`, `X`, `CSAVE`, `RK`, `CHAIN` or `KEY`: engines that agree on the
visible registers give the same value on every slot, the same `irq`, and go on agreeing on the visible registers
under every bus event but a write to `CMD`. -/
def Obligations.HiddenStateIsUnreadable : Prop :=
  ∀ a b : Engine, sameView a b →
    irq a = irq b ∧
    ∀ slot : Slot, readSlot a slot = readSlot b slot ∧ ∀ v : Word, sameView (writeSlot a slot v) (writeSlot b slot v)

/-! ## The cipher -/

/-- 42 R143: the subkey of round `r` is `RK[r]` to encrypt and `RK[31 - r]` to decrypt, and with this indexing the two
directions invert each other, for every schedule and block. -/
def Obligations.CryptDirectionsInvert : Prop :=
  ∀ (rk : Vector Word 32) (b : Bytes16),
    (∀ r : Fin 32, subkey rk false r = rk[r.val] ∧ subkey rk true r = rk[31 - r.val]) ∧
    crypt rk true (crypt rk false b) = b ∧ crypt rk false (crypt rk true b) = b

/-- 43 R157: CBC decryption of the CBC encryption of any blocks, under the same schedule and IV, returns the blocks;
likewise for ECB. -/
def Obligations.BlockSequencesRoundTrip : Prop :=
  ∀ (rk : Vector Word 32) (iv : Quad) (ps : List Quad),
    cbcDecryptBlocks rk iv (cbcEncryptBlocks rk iv ps) = ps ∧ ecbBlocks rk true (ecbBlocks rk false ps) = ps

/-- 00 R9: byte `4i + j` is bits `31-8j` to `24-8j` of word `i`, in both directions, and the two directions are
inverse. -/
def Obligations.WordsAndBytesAreInverse : Prop :=
  (∀ (b : Bytes16) (i j : Fin 4),
    (quadGet (words b) i).extractLsb' (24 - 8 * j.val) 8 = b.toList.getD (4 * i.val + j.val) 0#8) ∧
  (∀ (q : Quad) (i j : Fin 4),
    (bytes q).toList.getD (4 * i.val + j.val) 0#8 = (quadGet q i).extractLsb' (24 - 8 * j.val) 8) ∧
  (∀ b : Bytes16, bytes (words b) = b) ∧ (∀ q : Quad, words (bytes q) = q)

/-- 40 R110: "Bit `b` of `w` becomes bit `(b + n) mod 32` of the result", for `n` in 1 to 31; the formula, and the
corner cases. -/
def Obligations.RotlMovesEveryBit : Prop :=
  ∀ (w : Word) (n : Nat), 1 ≤ n → n ≤ 31 →
    (∀ b, b < 32 → (rotl w n).getLsbD ((b + n) % 32) = w.getLsbD b) ∧
    rotl w n = ((w <<< n) ||| (w >>> (32 - n))) &&& 0xFFFFFFFF#32 ∧
    rotl 0x00000000#32 n = 0x00000000#32 ∧ rotl 0xFFFFFFFF#32 n = 0xFFFFFFFF#32 ∧
    rotl 0x80000000#32 2 = 0x00000002#32

/-- 40 R120 (b): the mixing transforms and the rotation are linear over XOR. -/
def Obligations.MixingIsLinear : Prop :=
  ∀ a b : Word,
    lData (a ^^^ b) = lData a ^^^ lData b ∧ lKey (a ^^^ b) = lKey a ^^^ lKey b ∧ lData 0#32 = 0#32 ∧
    lKey 0#32 = 0#32 ∧ ∀ n, 1 ≤ n → n ≤ 31 → rotl (a ^^^ b) n = rotl a n ^^^ rotl b n

/-- 40 R111 and R120 (c): the S-box is a permutation whose only fixed point is 0xAB, and `tau` is a bijection on
words. It rests on the table's values, which are the spec's and not its source's (log 3). -/
def Obligations.SubstitutionIsBijective : Prop :=
  Function.Bijective sbox ∧ (∀ b : Byte, sbox b = b ↔ b = 0xAB#8) ∧ Function.Bijective tau

/-- 95 V1, V20: the known vector: the schedule's first and last subkeys and the ciphertext of the key's own bytes. It
rests on the tables' values (log 3), and on 90 C1 for the last digit. -/
def Obligations.KnownVector : Prop :=
  let k : Quad := ⟨0x01234567#32, 0x89ABCDEF#32, 0xFEDCBA98#32, 0x76543210#32⟩
  (keyExpandWords k)[0] = 0xF12186F9#32 ∧ (keyExpandWords k)[31] = 0x9124A012#32 ∧
  cryptWords (keyExpandWords k) false k = ⟨0x681EDF34#32, 0xD206965E#32, 0x86B3E94F#32, 0x536E4246#32⟩

/-! ## The host layer -/

/-- 30 R100 and 70 R266 (log 1 for fairness): `wait` ends, whoever else moves and however the free value turns out: a
busy engine completes after exactly its remaining engine steps, nothing is added to the read log, and the rest of
the script is next. -/
def Obligations.WaitEnds : Prop :=
  ∀ (s : State) (rest : List BusEvent), s.pending = .poll :: rest →
    ∃ (n : Nat) (s' : State), Host.Core.run Sys2Proof.core n s = .next s' ∧
      s'.pending = rest ∧ busy s'.engine = false ∧ s'.readLog = s.readLog ∧ s'.irqLog = s.irqLog ∧
      s'.engine =
        if busy s.engine then engineSteps (32 - s.engine.seq.rnd.val) s.engine else s.engine

/-- 45 R186 to R191 on the engine (92 D1): from any idle state with nothing pending, running a call's host script to
its end leaves a read log from which the driver makes exactly the value that the pure functions give the call. -/
def Obligations.DriverComputesTheMessage : Prop :=
  ∀ (c : Call) (sc : List ScriptInstr) (s : State),
    busy s.engine = false → s.pending = [] → c.scheduleReady = false → callScript c = .ok sc →
    ∃ (n : Nat) (s' : State) (out : List Word),
      Host.Core.run Sys2Proof.core n (s.submit sc) = .next s' ∧ s'.pending = [] ∧ busy s'.engine = false ∧
      s'.readLog = s.readLog ++ out ∧ finishCall c out = callResult c

/-- 45 R190, its second case: where the engine already holds the schedule of the call's key, the script without the key
set-up serves as well: the read log gives the value of the pure functions, and the schedule is still there after. -/
def Obligations.DriverReusesReadySchedule : Prop :=
  ∀ (c : Call) (sc : List ScriptInstr) (s : State),
    busy s.engine = false → s.pending = [] → c.scheduleReady = true → s.engine.keyValid = true →
    s.engine.rk = keyExpand (block16 c.key) → callScript c = .ok sc →
    ∃ (n : Nat) (s' : State) (out : List Word),
      Host.Core.run Sys2Proof.core n (s.submit sc) = .next s' ∧ s'.pending = [] ∧ busy s'.engine = false ∧
      s'.engine.keyValid = true ∧ s'.engine.rk = s.engine.rk ∧
      s'.readLog = s.readLog ++ out ∧ finishCall c out = callResult c

/-- 95 V3 (43 R157, 45 R183, R197): decrypting what the facade encrypted returns the string, in both modes, for every
string of Unicode scalar values and every 16-byte key (and IV in CBC) or the defaults, whatever the open parameters. -/
def Obligations.FacadeRoundTrip : Prop :=
  ∀ (m : Mode) (t : Text) (iv key : Option Bytes),
    t.all isScalar = true → (∀ k, key = some k → k.length = 16) →
    (m = .cbc → ∀ v, iv = some v → v.length = 16) →
    (facadeEncrypt m t iv key).bind (fun c => facadeDecrypt m c iv key) = .ok t

/-- 45 R180, R181: `Pad` appends `p = 16 - (len mod 16)` bytes of value `p`, 1 to 16 of them, 16 when aligned; the
result's length is a multiple of 16, at least 16. -/
def Obligations.PadAppendsOneToSixteen : Prop :=
  ∀ m : Bytes, ∃ p : Nat,
    p = 16 - m.length % 16 ∧ 1 ≤ p ∧ p ≤ 16 ∧ pad m = m ++ List.replicate p (BitVec.ofNat 8 p) ∧
    (pad m).length = m.length + p ∧ (pad m).length % 16 = 0 ∧ 16 ≤ (pad m).length ∧
    (m.length % 16 = 0 → pad m = m ++ List.replicate 16 0x10#8)

/-- 45 R182, R183: `Unpad` drops as many bytes as the last byte says, whatever the dropped bytes are; it undoes
`Pad`. Where the last byte exceeds the length, or there is none, no result is given (93 U3, U4). -/
def Obligations.UnpadDropsByLastByte : Prop :=
  (∀ m : Bytes, unpad (pad m) = .ok m) ∧
  (∀ (d r : Bytes) (p : Byte), p.toNat = r.length + 1 → unpad (d ++ r ++ [p]) = .ok d) ∧
  (∀ d : Bytes, unpad (d ++ [0#8]) = .ok (d ++ [0#8])) ∧
  (∀ (d : Bytes) (p : Byte), d.length + 1 < p.toNat → unpad (d ++ [p]) = .refused .unpadOverrun) ∧
  unpad [] = .refused .unpadEmpty

/-- 45 R197: `base64Decode(base64Encode(bytes)) == bytes` for arbitrary byte sequences including empty, whatever the
open parameter `base64_strict`. -/
def Obligations.Base64RoundTrip : Prop := ∀ b : Bytes, base64Decode (base64Encode b) = .ok b

/-- 45 R195, R196: UTF-8 decoding of the encoding of any string of Unicode scalar values returns the string. -/
def Obligations.Utf8RoundTrip : Prop :=
  ∀ t : Text, t.all isScalar = true → ∃ b : Bytes, utf8Encode t = .ok b ∧ utf8Decode b = .ok t

/-- 45 R192 (R190, R191, R187, R189): the driver's checks in their order, before any register is written: key length,
then IV length in CBC, then ciphertext length on decrypt. -/
def Obligations.DriverChecksInOrder : Prop :=
  ∀ c : Call,
    (c.key.length ≠ 16 →
      callScript c = .error .invalidKeyLength ∧ callResult c = .error .invalidKeyLength) ∧
    (c.key.length = 16 → c.mode = .cbc → c.iv.length ≠ 16 →
      callScript c = .error .invalidIVLength ∧ callResult c = .error .invalidIVLength) ∧
    (c.key.length = 16 → (c.mode = .cbc → c.iv.length = 16) → c.direction = .decrypt →
      c.message.length % 16 ≠ 0 →
      callScript c = .error .invalidCiphertextLength ∧ callResult c = .error .invalidCiphertextLength)

/-- 45 R193: with padding, `n` bytes encrypt to `16 * (floor(n / 16) + 1)` bytes in either mode, with no IV before
them. -/
def Obligations.CiphertextLength : Prop :=
  ∀ (c : Call) (out : Bytes), c.direction = .encrypt → c.paddingEnabled = true → callResult c = .ok out →
    out.length = 16 * (c.message.length / 16 + 1)
end

