-- ==== Sys2Proof/Laws/State.lean ====
section
/-! SUPPORT. One lemma per field per update, true by rfl: the fields of the machine after each named update of it,
and the fields of the engine after each named update of it. -/

namespace Sys2Proof.Machine

open Sys2Proof

@[simp] theorem State.withEngine_engine (s : State) (e : Engine) : (s.withEngine e).engine = e := rfl
@[simp] theorem State.withEngine_pending (s : State) (e : Engine) : (s.withEngine e).pending = s.pending := rfl
@[simp] theorem State.withEngine_readLog (s : State) (e : Engine) : (s.withEngine e).readLog = s.readLog := rfl
@[simp] theorem State.withEngine_irqLog (s : State) (e : Engine) : (s.withEngine e).irqLog = s.irqLog := rfl
@[simp] theorem State.withEngine_budget (s : State) (e : Engine) : (s.withEngine e).budget = s.budget := rfl
@[simp] theorem State.withEngine_ticks (s : State) (e : Engine) : (s.withEngine e).ticks = s.ticks := rfl

@[simp] theorem takeEvent_engine (s : State) (rest : List BusEvent) : (takeEvent s rest).engine = s.engine := rfl
@[simp] theorem takeEvent_pending (s : State) (rest : List BusEvent) : (takeEvent s rest).pending = rest := rfl
@[simp] theorem takeEvent_readLog (s : State) (rest : List BusEvent) : (takeEvent s rest).readLog = s.readLog := rfl
@[simp] theorem takeEvent_irqLog (s : State) (rest : List BusEvent) : (takeEvent s rest).irqLog = s.irqLog := rfl
@[simp] theorem takeEvent_budget (s : State) (rest : List BusEvent) : (takeEvent s rest).budget = (if busy s.engine then some (hostBudget s - 1) else none) := rfl
@[simp] theorem takeEvent_ticks (s : State) (rest : List BusEvent) : (takeEvent s rest).ticks = s.ticks + 1 := rfl

@[simp] theorem takeEngineStep_engine (s : State) : (takeEngineStep s).engine = engineStep s.engine := rfl
@[simp] theorem takeEngineStep_pending (s : State) : (takeEngineStep s).pending = s.pending := rfl
@[simp] theorem takeEngineStep_readLog (s : State) : (takeEngineStep s).readLog = s.readLog := rfl
@[simp] theorem takeEngineStep_irqLog (s : State) : (takeEngineStep s).irqLog = s.irqLog := rfl
@[simp] theorem takeEngineStep_budget (s : State) : (takeEngineStep s).budget = none := rfl
@[simp] theorem takeEngineStep_ticks (s : State) : (takeEngineStep s).ticks = s.ticks + 1 := rfl

@[simp] theorem State.placeFirst_engine (s : State) (ev : BusEvent) : (s.placeFirst ev).engine = s.engine := rfl
@[simp] theorem State.placeFirst_pending (s : State) (ev : BusEvent) : (s.placeFirst ev).pending = ev :: s.pending := rfl
@[simp] theorem State.placeFirst_readLog (s : State) (ev : BusEvent) : (s.placeFirst ev).readLog = s.readLog := rfl
@[simp] theorem State.placeFirst_irqLog (s : State) (ev : BusEvent) : (s.placeFirst ev).irqLog = s.irqLog := rfl
@[simp] theorem State.placeFirst_budget (s : State) (ev : BusEvent) : (s.placeFirst ev).budget = (if busy s.engine then some (s.budget.getD 0 + 1) else s.budget) := rfl
@[simp] theorem State.placeFirst_ticks (s : State) (ev : BusEvent) : (s.placeFirst ev).ticks = s.ticks := rfl

/-! The fields after `raise` (60 R222). -/

@[simp] theorem raise_ctrl (k : Err) (e : Engine) : (raise k e).ctrl = e.ctrl := rfl
@[simp] theorem raise_done (k : Err) (e : Engine) : (raise k e).done = e.done := rfl
@[simp] theorem raise_keyValid (k : Err) (e : Engine) : (raise k e).keyValid = e.keyValid := rfl
@[simp] theorem raise_ivValid (k : Err) (e : Engine) : (raise k e).ivValid = e.ivValid := rfl
@[simp] theorem raise_err (k : Err) (e : Engine) : (raise k e).err = e.err.set k := rfl
@[simp] theorem raise_keyw (k : Err) (e : Engine) : (raise k e).keyw = e.keyw := rfl
@[simp] theorem raise_ivw (k : Err) (e : Engine) : (raise k e).ivw = e.ivw := rfl
@[simp] theorem raise_dinw (k : Err) (e : Engine) : (raise k e).dinw = e.dinw := rfl
@[simp] theorem raise_key (k : Err) (e : Engine) : (raise k e).key = e.key := rfl
@[simp] theorem raise_iv (k : Err) (e : Engine) : (raise k e).iv = e.iv := rfl
@[simp] theorem raise_din (k : Err) (e : Engine) : (raise k e).din = e.din := rfl
@[simp] theorem raise_dout (k : Err) (e : Engine) : (raise k e).dout = e.dout := rfl
@[simp] theorem raise_rk (k : Err) (e : Engine) : (raise k e).rk = e.rk := rfl
@[simp] theorem raise_chain (k : Err) (e : Engine) : (raise k e).chain = e.chain := rfl
@[simp] theorem raise_seq (k : Err) (e : Engine) : (raise k e).seq = e.seq := rfl
@[simp] theorem raise_x (k : Err) (e : Engine) : (raise k e).x = e.x := rfl
@[simp] theorem raise_csave (k : Err) (e : Engine) : (raise k e).csave = e.csave := rfl

/-! The fields after a write of `CTRL` (10 R31). -/

@[simp] theorem writeCtrl_ctrl (e : Engine) (v : Word) : (writeCtrl e v).ctrl = ⟨v.getLsbD 0, v.getLsbD 1⟩ := rfl
@[simp] theorem writeCtrl_done (e : Engine) (v : Word) : (writeCtrl e v).done = e.done := rfl
@[simp] theorem writeCtrl_keyValid (e : Engine) (v : Word) : (writeCtrl e v).keyValid = e.keyValid := rfl
@[simp] theorem writeCtrl_ivValid (e : Engine) (v : Word) : (writeCtrl e v).ivValid = e.ivValid := rfl
@[simp] theorem writeCtrl_err (e : Engine) (v : Word) : (writeCtrl e v).err = e.err := rfl
@[simp] theorem writeCtrl_keyw (e : Engine) (v : Word) : (writeCtrl e v).keyw = e.keyw := rfl
@[simp] theorem writeCtrl_ivw (e : Engine) (v : Word) : (writeCtrl e v).ivw = e.ivw := rfl
@[simp] theorem writeCtrl_dinw (e : Engine) (v : Word) : (writeCtrl e v).dinw = e.dinw := rfl
@[simp] theorem writeCtrl_key (e : Engine) (v : Word) : (writeCtrl e v).key = e.key := rfl
@[simp] theorem writeCtrl_iv (e : Engine) (v : Word) : (writeCtrl e v).iv = e.iv := rfl
@[simp] theorem writeCtrl_din (e : Engine) (v : Word) : (writeCtrl e v).din = e.din := rfl
@[simp] theorem writeCtrl_dout (e : Engine) (v : Word) : (writeCtrl e v).dout = e.dout := rfl
@[simp] theorem writeCtrl_rk (e : Engine) (v : Word) : (writeCtrl e v).rk = e.rk := rfl
@[simp] theorem writeCtrl_chain (e : Engine) (v : Word) : (writeCtrl e v).chain = e.chain := rfl
@[simp] theorem writeCtrl_seq (e : Engine) (v : Word) : (writeCtrl e v).seq = e.seq := rfl
@[simp] theorem writeCtrl_x (e : Engine) (v : Word) : (writeCtrl e v).x = e.x := rfl
@[simp] theorem writeCtrl_csave (e : Engine) (v : Word) : (writeCtrl e v).csave = e.csave := rfl

/-! The fields after a write of `STATUS` (10 R32). -/

@[simp] theorem writeStatus_ctrl (e : Engine) (v : Word) : (writeStatus e v).ctrl = e.ctrl := rfl
@[simp] theorem writeStatus_done (e : Engine) (v : Word) : (writeStatus e v).done = (e.done && !v.getLsbD 1) := rfl
@[simp] theorem writeStatus_keyValid (e : Engine) (v : Word) : (writeStatus e v).keyValid = e.keyValid := rfl
@[simp] theorem writeStatus_ivValid (e : Engine) (v : Word) : (writeStatus e v).ivValid = e.ivValid := rfl
@[simp] theorem writeStatus_err (e : Engine) (v : Word) : (writeStatus e v).err = e.err.writeOneToClear v := rfl
@[simp] theorem writeStatus_keyw (e : Engine) (v : Word) : (writeStatus e v).keyw = e.keyw := rfl
@[simp] theorem writeStatus_ivw (e : Engine) (v : Word) : (writeStatus e v).ivw = e.ivw := rfl
@[simp] theorem writeStatus_dinw (e : Engine) (v : Word) : (writeStatus e v).dinw = e.dinw := rfl
@[simp] theorem writeStatus_key (e : Engine) (v : Word) : (writeStatus e v).key = e.key := rfl
@[simp] theorem writeStatus_iv (e : Engine) (v : Word) : (writeStatus e v).iv = e.iv := rfl
@[simp] theorem writeStatus_din (e : Engine) (v : Word) : (writeStatus e v).din = e.din := rfl
@[simp] theorem writeStatus_dout (e : Engine) (v : Word) : (writeStatus e v).dout = e.dout := rfl
@[simp] theorem writeStatus_rk (e : Engine) (v : Word) : (writeStatus e v).rk = e.rk := rfl
@[simp] theorem writeStatus_chain (e : Engine) (v : Word) : (writeStatus e v).chain = e.chain := rfl
@[simp] theorem writeStatus_seq (e : Engine) (v : Word) : (writeStatus e v).seq = e.seq := rfl
@[simp] theorem writeStatus_x (e : Engine) (v : Word) : (writeStatus e v).x = e.x := rfl
@[simp] theorem writeStatus_csave (e : Engine) (v : Word) : (writeStatus e v).csave = e.csave := rfl

/-! The fields after a write of `KEY[i]` (10 R21). -/

@[simp] theorem writeKey_ctrl (e : Engine) (i : Fin 4) (v : Word) : (writeKey e i v).ctrl = e.ctrl := rfl
@[simp] theorem writeKey_done (e : Engine) (i : Fin 4) (v : Word) : (writeKey e i v).done = e.done := rfl
@[simp] theorem writeKey_keyValid (e : Engine) (i : Fin 4) (v : Word) : (writeKey e i v).keyValid = e.keyValid := rfl
@[simp] theorem writeKey_ivValid (e : Engine) (i : Fin 4) (v : Word) : (writeKey e i v).ivValid = e.ivValid := rfl
@[simp] theorem writeKey_err (e : Engine) (i : Fin 4) (v : Word) : (writeKey e i v).err = e.err := rfl
@[simp] theorem writeKey_keyw (e : Engine) (i : Fin 4) (v : Word) : (writeKey e i v).keyw = maskSet e.keyw i := rfl
@[simp] theorem writeKey_ivw (e : Engine) (i : Fin 4) (v : Word) : (writeKey e i v).ivw = e.ivw := rfl
@[simp] theorem writeKey_dinw (e : Engine) (i : Fin 4) (v : Word) : (writeKey e i v).dinw = e.dinw := rfl
@[simp] theorem writeKey_key (e : Engine) (i : Fin 4) (v : Word) : (writeKey e i v).key = quadSet e.key i v := rfl
@[simp] theorem writeKey_iv (e : Engine) (i : Fin 4) (v : Word) : (writeKey e i v).iv = e.iv := rfl
@[simp] theorem writeKey_din (e : Engine) (i : Fin 4) (v : Word) : (writeKey e i v).din = e.din := rfl
@[simp] theorem writeKey_dout (e : Engine) (i : Fin 4) (v : Word) : (writeKey e i v).dout = e.dout := rfl
@[simp] theorem writeKey_rk (e : Engine) (i : Fin 4) (v : Word) : (writeKey e i v).rk = e.rk := rfl
@[simp] theorem writeKey_chain (e : Engine) (i : Fin 4) (v : Word) : (writeKey e i v).chain = e.chain := rfl
@[simp] theorem writeKey_seq (e : Engine) (i : Fin 4) (v : Word) : (writeKey e i v).seq = e.seq := rfl
@[simp] theorem writeKey_x (e : Engine) (i : Fin 4) (v : Word) : (writeKey e i v).x = e.x := rfl
@[simp] theorem writeKey_csave (e : Engine) (i : Fin 4) (v : Word) : (writeKey e i v).csave = e.csave := rfl

/-! The fields after a write of `IV[i]` (10 R22). -/

@[simp] theorem writeIv_ctrl (e : Engine) (i : Fin 4) (v : Word) : (writeIv e i v).ctrl = e.ctrl := rfl
@[simp] theorem writeIv_done (e : Engine) (i : Fin 4) (v : Word) : (writeIv e i v).done = e.done := rfl
@[simp] theorem writeIv_keyValid (e : Engine) (i : Fin 4) (v : Word) : (writeIv e i v).keyValid = e.keyValid := rfl
@[simp] theorem writeIv_ivValid (e : Engine) (i : Fin 4) (v : Word) : (writeIv e i v).ivValid = e.ivValid := rfl
@[simp] theorem writeIv_err (e : Engine) (i : Fin 4) (v : Word) : (writeIv e i v).err = e.err := rfl
@[simp] theorem writeIv_keyw (e : Engine) (i : Fin 4) (v : Word) : (writeIv e i v).keyw = e.keyw := rfl
@[simp] theorem writeIv_ivw (e : Engine) (i : Fin 4) (v : Word) : (writeIv e i v).ivw = maskSet e.ivw i := rfl
@[simp] theorem writeIv_dinw (e : Engine) (i : Fin 4) (v : Word) : (writeIv e i v).dinw = e.dinw := rfl
@[simp] theorem writeIv_key (e : Engine) (i : Fin 4) (v : Word) : (writeIv e i v).key = e.key := rfl
@[simp] theorem writeIv_iv (e : Engine) (i : Fin 4) (v : Word) : (writeIv e i v).iv = quadSet e.iv i v := rfl
@[simp] theorem writeIv_din (e : Engine) (i : Fin 4) (v : Word) : (writeIv e i v).din = e.din := rfl
@[simp] theorem writeIv_dout (e : Engine) (i : Fin 4) (v : Word) : (writeIv e i v).dout = e.dout := rfl
@[simp] theorem writeIv_rk (e : Engine) (i : Fin 4) (v : Word) : (writeIv e i v).rk = e.rk := rfl
@[simp] theorem writeIv_chain (e : Engine) (i : Fin 4) (v : Word) : (writeIv e i v).chain = e.chain := rfl
@[simp] theorem writeIv_seq (e : Engine) (i : Fin 4) (v : Word) : (writeIv e i v).seq = e.seq := rfl
@[simp] theorem writeIv_x (e : Engine) (i : Fin 4) (v : Word) : (writeIv e i v).x = e.x := rfl
@[simp] theorem writeIv_csave (e : Engine) (i : Fin 4) (v : Word) : (writeIv e i v).csave = e.csave := rfl

/-! The fields after a write of `DIN[i]` (10 R23). -/

@[simp] theorem writeDin_ctrl (e : Engine) (i : Fin 4) (v : Word) : (writeDin e i v).ctrl = e.ctrl := rfl
@[simp] theorem writeDin_done (e : Engine) (i : Fin 4) (v : Word) : (writeDin e i v).done = e.done := rfl
@[simp] theorem writeDin_keyValid (e : Engine) (i : Fin 4) (v : Word) : (writeDin e i v).keyValid = e.keyValid := rfl
@[simp] theorem writeDin_ivValid (e : Engine) (i : Fin 4) (v : Word) : (writeDin e i v).ivValid = e.ivValid := rfl
@[simp] theorem writeDin_err (e : Engine) (i : Fin 4) (v : Word) : (writeDin e i v).err = e.err := rfl
@[simp] theorem writeDin_keyw (e : Engine) (i : Fin 4) (v : Word) : (writeDin e i v).keyw = e.keyw := rfl
@[simp] theorem writeDin_ivw (e : Engine) (i : Fin 4) (v : Word) : (writeDin e i v).ivw = e.ivw := rfl
@[simp] theorem writeDin_dinw (e : Engine) (i : Fin 4) (v : Word) : (writeDin e i v).dinw = maskSet e.dinw i := rfl
@[simp] theorem writeDin_key (e : Engine) (i : Fin 4) (v : Word) : (writeDin e i v).key = e.key := rfl
@[simp] theorem writeDin_iv (e : Engine) (i : Fin 4) (v : Word) : (writeDin e i v).iv = e.iv := rfl
@[simp] theorem writeDin_din (e : Engine) (i : Fin 4) (v : Word) : (writeDin e i v).din = quadSet e.din i v := rfl
@[simp] theorem writeDin_dout (e : Engine) (i : Fin 4) (v : Word) : (writeDin e i v).dout = e.dout := rfl
@[simp] theorem writeDin_rk (e : Engine) (i : Fin 4) (v : Word) : (writeDin e i v).rk = e.rk := rfl
@[simp] theorem writeDin_chain (e : Engine) (i : Fin 4) (v : Word) : (writeDin e i v).chain = e.chain := rfl
@[simp] theorem writeDin_seq (e : Engine) (i : Fin 4) (v : Word) : (writeDin e i v).seq = e.seq := rfl
@[simp] theorem writeDin_x (e : Engine) (i : Fin 4) (v : Word) : (writeDin e i v).x = e.x := rfl
@[simp] theorem writeDin_csave (e : Engine) (i : Fin 4) (v : Word) : (writeDin e i v).csave = e.csave := rfl

/-! The fields after the acceptance of `KEYEXP` (41 R130). -/

@[simp] theorem acceptKeyexp_ctrl (e : Engine) : (acceptKeyexp e).ctrl = e.ctrl := rfl
@[simp] theorem acceptKeyexp_done (e : Engine) : (acceptKeyexp e).done = false := rfl
@[simp] theorem acceptKeyexp_keyValid (e : Engine) : (acceptKeyexp e).keyValid = false := rfl
@[simp] theorem acceptKeyexp_ivValid (e : Engine) : (acceptKeyexp e).ivValid = e.ivValid := rfl
@[simp] theorem acceptKeyexp_err (e : Engine) : (acceptKeyexp e).err = e.err := rfl
@[simp] theorem acceptKeyexp_keyw (e : Engine) : (acceptKeyexp e).keyw = 0b0000#4 := rfl
@[simp] theorem acceptKeyexp_ivw (e : Engine) : (acceptKeyexp e).ivw = e.ivw := rfl
@[simp] theorem acceptKeyexp_dinw (e : Engine) : (acceptKeyexp e).dinw = e.dinw := rfl
@[simp] theorem acceptKeyexp_key (e : Engine) : (acceptKeyexp e).key = quadZero := rfl
@[simp] theorem acceptKeyexp_iv (e : Engine) : (acceptKeyexp e).iv = e.iv := rfl
@[simp] theorem acceptKeyexp_din (e : Engine) : (acceptKeyexp e).din = e.din := rfl
@[simp] theorem acceptKeyexp_dout (e : Engine) : (acceptKeyexp e).dout = e.dout := rfl
@[simp] theorem acceptKeyexp_rk (e : Engine) : (acceptKeyexp e).rk = e.rk := rfl
@[simp] theorem acceptKeyexp_chain (e : Engine) : (acceptKeyexp e).chain = e.chain := rfl
@[simp] theorem acceptKeyexp_seq (e : Engine) : (acceptKeyexp e).seq = seqStart .kexp 0b00#2 := rfl
@[simp] theorem acceptKeyexp_x (e : Engine) : (acceptKeyexp e).x = kexpStart e.key := rfl
@[simp] theorem acceptKeyexp_csave (e : Engine) : (acceptKeyexp e).csave = e.csave := rfl

/-! The fields after the acceptance of `IVLOAD` (43 R150). -/

@[simp] theorem acceptIvload_ctrl (e : Engine) : (acceptIvload e).ctrl = e.ctrl := rfl
@[simp] theorem acceptIvload_done (e : Engine) : (acceptIvload e).done = true := rfl
@[simp] theorem acceptIvload_keyValid (e : Engine) : (acceptIvload e).keyValid = e.keyValid := rfl
@[simp] theorem acceptIvload_ivValid (e : Engine) : (acceptIvload e).ivValid = true := rfl
@[simp] theorem acceptIvload_err (e : Engine) : (acceptIvload e).err = e.err := rfl
@[simp] theorem acceptIvload_keyw (e : Engine) : (acceptIvload e).keyw = e.keyw := rfl
@[simp] theorem acceptIvload_ivw (e : Engine) : (acceptIvload e).ivw = e.ivw := rfl
@[simp] theorem acceptIvload_dinw (e : Engine) : (acceptIvload e).dinw = e.dinw := rfl
@[simp] theorem acceptIvload_key (e : Engine) : (acceptIvload e).key = e.key := rfl
@[simp] theorem acceptIvload_iv (e : Engine) : (acceptIvload e).iv = e.iv := rfl
@[simp] theorem acceptIvload_din (e : Engine) : (acceptIvload e).din = e.din := rfl
@[simp] theorem acceptIvload_dout (e : Engine) : (acceptIvload e).dout = e.dout := rfl
@[simp] theorem acceptIvload_rk (e : Engine) : (acceptIvload e).rk = e.rk := rfl
@[simp] theorem acceptIvload_chain (e : Engine) : (acceptIvload e).chain = e.iv := rfl
@[simp] theorem acceptIvload_seq (e : Engine) : (acceptIvload e).seq = e.seq := rfl
@[simp] theorem acceptIvload_x (e : Engine) : (acceptIvload e).x = e.x := rfl
@[simp] theorem acceptIvload_csave (e : Engine) : (acceptIvload e).csave = e.csave := rfl

/-! The fields after the acceptance of a block command (43 R151 to R154). -/

@[simp] theorem acceptBlock_ctrl (op : BitVec 2) (q c : Quad) (e : Engine) : (acceptBlock op q c e).ctrl = e.ctrl := rfl
@[simp] theorem acceptBlock_done (op : BitVec 2) (q c : Quad) (e : Engine) : (acceptBlock op q c e).done = false := rfl
@[simp] theorem acceptBlock_keyValid (op : BitVec 2) (q c : Quad) (e : Engine) : (acceptBlock op q c e).keyValid = e.keyValid := rfl
@[simp] theorem acceptBlock_ivValid (op : BitVec 2) (q c : Quad) (e : Engine) : (acceptBlock op q c e).ivValid = e.ivValid := rfl
@[simp] theorem acceptBlock_err (op : BitVec 2) (q c : Quad) (e : Engine) : (acceptBlock op q c e).err = e.err := rfl
@[simp] theorem acceptBlock_keyw (op : BitVec 2) (q c : Quad) (e : Engine) : (acceptBlock op q c e).keyw = e.keyw := rfl
@[simp] theorem acceptBlock_ivw (op : BitVec 2) (q c : Quad) (e : Engine) : (acceptBlock op q c e).ivw = e.ivw := rfl
@[simp] theorem acceptBlock_dinw (op : BitVec 2) (q c : Quad) (e : Engine) : (acceptBlock op q c e).dinw = 0b0000#4 := rfl
@[simp] theorem acceptBlock_key (op : BitVec 2) (q c : Quad) (e : Engine) : (acceptBlock op q c e).key = e.key := rfl
@[simp] theorem acceptBlock_iv (op : BitVec 2) (q c : Quad) (e : Engine) : (acceptBlock op q c e).iv = e.iv := rfl
@[simp] theorem acceptBlock_din (op : BitVec 2) (q c : Quad) (e : Engine) : (acceptBlock op q c e).din = e.din := rfl
@[simp] theorem acceptBlock_dout (op : BitVec 2) (q c : Quad) (e : Engine) : (acceptBlock op q c e).dout = e.dout := rfl
@[simp] theorem acceptBlock_rk (op : BitVec 2) (q c : Quad) (e : Engine) : (acceptBlock op q c e).rk = e.rk := rfl
@[simp] theorem acceptBlock_chain (op : BitVec 2) (q c : Quad) (e : Engine) : (acceptBlock op q c e).chain = e.chain := rfl
@[simp] theorem acceptBlock_seq (op : BitVec 2) (q c : Quad) (e : Engine) : (acceptBlock op q c e).seq = seqStart .crypt op := rfl
@[simp] theorem acceptBlock_x (op : BitVec 2) (q c : Quad) (e : Engine) : (acceptBlock op q c e).x = q := rfl
@[simp] theorem acceptBlock_csave (op : BitVec 2) (q c : Quad) (e : Engine) : (acceptBlock op q c e).csave = c := rfl

/-- Replacing the engine by itself changes nothing. -/
@[simp] theorem State.withEngine_self (s : State) : s.withEngine s.engine = s := rfl

/-- Only the last replacement of the engine counts. -/
@[simp] theorem State.withEngine_withEngine (s : State) (a b : Engine) :
    (s.withEngine a).withEngine b = s.withEngine b := rfl

/-- A command's acceptance makes the engine busy exactly when it starts a phase. -/
@[simp] theorem seqStart_phase (p : Phase) (op : BitVec 2) : (seqStart p op).phase = p := rfl
@[simp] theorem seqStart_rnd (p : Phase) (op : BitVec 2) : (seqStart p op).rnd = 0 := rfl
@[simp] theorem seqStart_op (p : Phase) (op : BitVec 2) : (seqStart p op).op = op := rfl
@[simp] theorem seqIdle_phase : seqIdle.phase = .idle := rfl
@[simp] theorem seqIdle_rnd : seqIdle.rnd = 0 := rfl
@[simp] theorem seqIdle_op : seqIdle.op = 0b00#2 := rfl

/-- The reset state's fields (10 R39). -/
@[simp] theorem State.reset_engine : State.reset.engine = Engine.reset := rfl
@[simp] theorem State.reset_pending : State.reset.pending = [] := rfl

end Sys2Proof.Machine
end

