-- ==== Sys2Proof/Laws/Ops.lean ====
section
/-! SUPPORT. What each shared operation can do, said once: a rejection, a command word, the engine step, the bus
events, one step of the machine. -/

namespace Sys2Proof.Machine

open Sys2Proof

/-! ## Words of four -/

/-- XOR word by word is self-inverse. -/
@[simp] theorem quadXor_cancel_right (a b : Quad) : quadXor (quadXor a b) b = a := by
  simp [quadXor]

@[simp] theorem quadReverse_quadReverse (q : Quad) : quadReverse (quadReverse q) = q := rfl

/-- Reading a written element. -/
@[simp] theorem quadGet_quadSet_same (q : Quad) (i : Fin 4) (v : Word) : quadGet (quadSet q i v) i = v := by
  fin_cases i <;> rfl

/-- Writing one element leaves the others alone. -/
theorem quadGet_quadSet_other (q : Quad) {i j : Fin 4} (v : Word) (h : j ≠ i) :
    quadGet (quadSet q i v) j = quadGet q j := by
  fin_cases i <;> fin_cases j <;> simp_all [quadGet, quadSet]

/-! ## Flags -/

/-- The engine is busy exactly in the phases other than `IDLE` (10 R32, R41 (a)). -/
theorem busy_eq_false_iff (e : Engine) : busy e = false ↔ e.seq.phase = .idle := by
  simp [busy]

theorem busy_eq_true_iff (e : Engine) : busy e = true ↔ e.seq.phase = .kexp ∨ e.seq.phase = .crypt := by
  cases h : e.seq.phase <;> simp [busy, h]

@[simp] theorem busy_raise (x : Err) (e : Engine) : busy (raise x e) = busy e := rfl

/-- `raise` sets its own flag and leaves the other flags alone (60 R222). -/
theorem ErrFlags.get_set (f : ErrFlags) (x y : Err) : (f.set x).get y = (decide (y = x) || f.get y) := by
  cases x <;> cases y <;> simp [ErrFlags.set, ErrFlags.get]

/-- A flag survives a `STATUS` write exactly when its bit is 0 (10 R32). -/
theorem ErrFlags.get_writeOneToClear (f : ErrFlags) (v : Word) (x : Err) :
    (f.writeOneToClear v).get x = (f.get x && !v.getLsbD x.code) := by
  cases x <;> rfl

/-- A written mask is full only when it is `1111` (10 R25). -/
@[simp] theorem maskFull_iff (m : BitVec 4) : maskFull m = true ↔ m = 0b1111#4 := by
  simp [maskFull]

/-! ## Commands -/

/-- Everything a command word can do (30 R91): rejected while busy, rejected by its own check, or accepted. -/
theorem runCommand_cases (check : Engine → Option Err) (accept : Engine → Engine) (e : Engine) :
    (busy e = true ∧ runCommand check accept e = raise .eBusy e) ∨
    (∃ x, busy e = false ∧ check e = some x ∧ runCommand check accept e = raise x e) ∨
    (busy e = false ∧ check e = none ∧ runCommand check accept e = accept e) := by
  unfold runCommand
  cases hb : busy e with
  | true => exact .inl ⟨rfl, rfl⟩
  | false =>
    cases hc : check e with
    | some x => exact .inr (.inl ⟨x, rfl, rfl, rfl⟩)
    | none => exact .inr (.inr ⟨rfl, rfl, rfl⟩)

/-- The checks of a block command all pass (43 R155). -/
theorem blockCheck_eq_none_iff (mode : Bool) (e : Engine) :
    blockCheck mode e = none ↔
      e.keyValid = true ∧ (mode = true → e.ivValid = true) ∧ e.dinw = 0b1111#4 := by
  unfold blockCheck maskFull
  cases e.keyValid <;> cases mode <;> cases e.ivValid <;> simp

/-- Every meaning answers a next state that differs in the engine only. -/
theorem exec_eq_next (i : Instr) (s : State) : ∃ e, exec i s = .next (s.withEngine e) := by
  cases i <;> exact ⟨_, rfl⟩

/-- While busy every command is dropped with `E_BUSY` (60 R224). -/
theorem exec_of_busy (i : Instr) {s : State} (h : busy s.engine = true) :
    exec i s = .next (s.withEngine (raise .eBusy s.engine)) := by
  cases i <;> simp [exec, execNop, execKeyexp, execIvload, execZero, execEcbEnc, execEcbDec, execCbcEnc,
    execCbcDec, runCommand, h]

/-! ## Decode and encode -/

/-- The decoder reads back what the encoder writes. -/
@[simp] theorem decode_encode (i : Instr) : decode (encode i) = .ok i := by
  cases i <;> decide

/-- A decoded word is the encoder's word. -/
theorem encode_of_decode {w : Word} {i : Instr} (h : decode w = .ok i) : encode i = w := by
  unfold decode at h
  split_ifs at h with h0 h1 h2 h3 h4 h5 h6 h7 <;> cases h <;> subst w <;> decide

/-! ## The engine step -/

/-- The engine step in phase `KEXP` before the last round (41 R131). -/
theorem kexpStep_of_lt {e : Engine} (h : e.seq.rnd.val < 31) :
    kexpStep e = { e with
      rk := e.rk.set e.seq.rnd.val (kexpWord e.x e.seq.rnd.val)
      x := quadShift e.x (kexpWord e.x e.seq.rnd.val)
      seq := { e.seq with rnd := ⟨e.seq.rnd.val + 1, by omega⟩ } } := by
  simp [kexpStep, h]

/-- The completing step of `KEYEXP` (41 R131). -/
theorem kexpStep_of_last {e : Engine} (h : e.seq.rnd = 31) :
    kexpStep e = { e with
      rk := e.rk.set 31 (kexpWord e.x 31)
      x := quadZero
      seq := seqIdle
      keyValid := true
      done := true } := by
  have h' : e.seq.rnd.val = 31 := congrArg Fin.val h
  simp [kexpStep, h']

/-- The engine step in phase `CRYPT` before the last round (42 R142). -/
theorem cryptStep_of_lt {e : Engine} (h : e.seq.rnd.val < 31) :
    cryptStep e = { e with
      x := quadShift e.x (roundF e.x (subkey e.rk (opDir e.seq.op) e.seq.rnd))
      seq := { e.seq with rnd := ⟨e.seq.rnd.val + 1, by omega⟩ } } := by
  simp [cryptStep, h]

/-- The completing step of a block command (42 R142). -/
theorem cryptStep_of_last {e : Engine} (h : e.seq.rnd = 31) :
    cryptStep e = { e with
      dout := (completeOutput (opMode e.seq.op) (opDir e.seq.op)
        ⟨roundF e.x (subkey e.rk (opDir e.seq.op) 31), e.x.w3, e.x.w2, e.x.w1⟩ e.chain e.csave).1
      chain := (completeOutput (opMode e.seq.op) (opDir e.seq.op)
        ⟨roundF e.x (subkey e.rk (opDir e.seq.op) 31), e.x.w3, e.x.w2, e.x.w1⟩ e.chain e.csave).2
      x := quadZero
      csave := quadZero
      seq := seqIdle
      done := true } := by
  simp [cryptStep, h]

/-- Everything an engine step can do (41 R131; 42 R142). -/
theorem engineStep_cases (e : Engine) :
    (e.seq.phase = .idle ∧ engineStep e = e) ∨
    (e.seq.phase = .kexp ∧ engineStep e = kexpStep e) ∨
    (e.seq.phase = .crypt ∧ engineStep e = cryptStep e) := by
  cases h : e.seq.phase <;> simp [engineStep, h]

/-- `n + 1` engine steps, the last one apart. -/
theorem engineSteps_succ (n : Nat) (e : Engine) : engineSteps (n + 1) e = engineStep (engineSteps n e) := by
  induction n generalizing e with
  | zero => rfl
  | succ n ih => exact ih (engineStep e)

/-! ## The bus -/

/-- An access that exists names a slot (20 R61, R64). -/
theorem slotAt_ok_iff (off bytes : Nat) (slot : Slot) :
    slotAt off bytes = .ok slot ↔
      bytes = 4 ∧ off % 4 = 0 ∧ off < 256 ∧ slot = slotNumbered (off / 4) := by
  unfold slotAt
  split_ifs with h1 h2
  · constructor
    · intro h; cases h
    · rintro ⟨rfl, h, -⟩; simp [h] at h1
  · constructor
    · intro h; cases h
    · rintro ⟨-, -, h, -⟩; simp [Config.regSpaceBytes] at h2; omega
  · simp only [Config.regSpaceBytes, not_le] at h2
    have h3 : bytes = 4 ∧ off % 4 = 0 := by omega
    constructor
    · intro h; cases h; exact ⟨h3.1, h3.2, h2, rfl⟩
    · rintro ⟨-, -, -, rfl⟩; rfl

/-- A write to `CMD` never stops: it changes the engine only (30 R91). -/
theorem writeCmd_eq_next (v : Word) (s : State) : ∃ e, writeCmd v s = .next (s.withEngine e) := by
  unfold writeCmd
  split
  · exact ⟨_, rfl⟩
  · split
    · exact ⟨_, rfl⟩
    · exact exec_eq_next _ _

/-- Writing the word of a command to `CMD` runs that command, busy or not (30 R91). -/
theorem writeCmd_encode (i : Instr) (s : State) : writeCmd (encode i) s = exec i s := by
  unfold writeCmd
  cases hb : busy s.engine with
  | true => simp [exec_of_busy i hb]
  | false => simp

/-- Everything a bus write can do (20 R72). -/
theorem busWrite_cases (off bytes : Nat) (v : Word) (s : State) :
    (∃ r, slotAt off bytes = .error r ∧ busWrite off bytes v s = .refused r) ∨
    (slotAt off bytes = .ok .cmd ∧ busWrite off bytes v s = writeCmd v s) ∨
    (∃ slot, slot ≠ .cmd ∧ slotAt off bytes = .ok slot ∧
      busWrite off bytes v s = .next (s.withEngine (writeSlot s.engine slot v))) := by
  unfold busWrite
  cases h : slotAt off bytes with
  | error r => exact .inl ⟨r, rfl, rfl⟩
  | ok slot =>
    by_cases hc : slot = .cmd
    · subst hc; exact .inr (.inl ⟨rfl, rfl⟩)
    · refine .inr (.inr ⟨slot, hc, rfl, ?_⟩)
      cases slot <;> simp_all

/-! ## One step of the machine -/

/-- Everything one step can do: nothing is enabled, the engine steps, or the next pending event acts. -/
theorem step_cases (s : State) :
    (s.pending = [] ∧ busy s.engine = false ∧ step s = .next s) ∨
    (busy s.engine = true ∧ (s.pending = [] ∨ hostBudget s = 0) ∧ step s = .next (takeEngineStep s)) ∨
    (∃ ev rest, s.pending = ev :: rest ∧ (busy s.engine = false ∨ 0 < hostBudget s) ∧
      step s = performEvent ev (takeEvent s rest)) := by
  unfold step nextMove
  cases hp : s.pending with
  | nil =>
    cases hb : busy s.engine with
    | false => exact .inl ⟨rfl, rfl, rfl⟩
    | true => exact .inr (.inl ⟨rfl, .inl rfl, rfl⟩)
  | cons ev rest =>
    cases hb : busy s.engine with
    | false => exact .inr (.inr ⟨ev, rest, rfl, .inl rfl, rfl⟩)
    | true =>
      cases hn : hostBudget s with
      | zero => exact .inr (.inl ⟨rfl, .inr rfl, rfl⟩)
      | succ n => exact .inr (.inr ⟨ev, rest, rfl, .inr (Nat.succ_pos n), rfl⟩)

/-- The machine never faults (60 R220). -/
theorem step_ne_fault (s : State) (f : Fault) : step s ≠ .fault f := by
  cases f

end Sys2Proof.Machine
end

