-- ==== Sys2Proof/Laws/PerInstr.lean ====
section
/-! SUPPORT. Statements made per command: the encoding of each command (spec/30_encoding.md R90, R93). -/

namespace Sys2Proof.Laws.Encoding

open Sys2Proof

/-- The command is well-formed, its word is in the format of 30 R90, and the decoder reads the command back. -/
def Statement (i : Instr) : Prop :=
  i.wellFormed = true ∧ wordWellFormed (encode i) = true ∧ decode (encode i) = .ok i

theorem nop : Statement .nop := by unfold Statement; decide
theorem keyexp : Statement .keyexp := by unfold Statement; decide
theorem ivload : Statement .ivload := by unfold Statement; decide
theorem zero : Statement .zero := by unfold Statement; decide
theorem ecbEnc : Statement .ecbEnc := by unfold Statement; decide
theorem ecbDec : Statement .ecbDec := by unfold Statement; decide
theorem cbcEnc : Statement .cbcEnc := by unfold Statement; decide
theorem cbcDec : Statement .cbcDec := by unfold Statement; decide

end Sys2Proof.Laws.Encoding
end

