-- ==== Sys2Proof/Tests/Slice0.lean ====
section
/-! SUPPORT. The model's own tests: words written out from 30 R93, values from spec/95_test_vectors.md and the
worked examples of the rules; and a witness for every statement that has hypotheses. -/

namespace Sys2Proof.Tests

open Sys2Proof Sys2Proof.Machine

/-! ## Small states -/

/-- The key of 95 V1 as words. -/
def vKey : Quad := ⟨0x01234567#32, 0x89ABCDEF#32, 0xFEDCBA98#32, 0x76543210#32⟩

/-- The IV of 95 V30 as words. -/
def vIv : Quad := ⟨0x00010203#32, 0x04050607#32, 0x08090A0B#32, 0x0C0D0E0F#32⟩

/-- An idle engine on which every command is accepted. -/
def ready : Engine :=
  { Engine.reset with
    key := vKey, keyw := 0b1111#4, iv := vIv, ivw := 0b1111#4, din := vKey, dinw := 0b1111#4
    chain := vIv, keyValid := true, ivValid := true }

/-- A machine around an engine, nothing pending. -/
def around (e : Engine) : State := State.reset.withEngine e

/-- The same, with a `KEYEXP` in its last round. -/
def busyKexp : Engine := { ready with keyValid := false, seq := ⟨.kexp, 31, 0b00#2⟩ }

/-- A `CBC.DEC` in its last round. -/
def busyCrypt : Engine := { ready with csave := vKey, seq := ⟨.crypt, 31, 0b11#2⟩ }

/-- A value of the engine after an outcome, if the outcome is a next state. -/
def view {α : Type} (f : Engine → α) (o : Host.Outcome State Fault Refusal) : Option α :=
  match o with
  | .next s => some (f s.engine)
  | .fault _ => none
  | .refused _ => none

/-- Whether an outcome is a refusal for this reason. -/
def refusedWith (r : Refusal) (o : Host.Outcome State Fault Refusal) : Bool :=
  match o with
  | .refused r' => r' == r
  | .next _ => false
  | .fault _ => false

/-! ## WellFormed: an ill-formed word for each check (30 R90) -/

theorem test_wellFormed_refuses_zero28 : wordWellFormed 0x00000018#32 = false := by decide
theorem test_wellFormed_refuses_bit2 : wordWellFormed 0x0000000C#32 = false := by decide
theorem test_wellFormed_accepts : wordWellFormed 0x0000000B#32 = true := by decide

/-! ## Decode: words bit by bit from 30 R93 -/

theorem test_decode_nop : decode 0b00000000000000000000000000000000#32 = .ok .nop := by decide
theorem test_decode_keyexp : decode 0b00000000000000000000000000000001#32 = .ok .keyexp := by decide
theorem test_decode_ivload : decode 0b00000000000000000000000000000010#32 = .ok .ivload := by decide
theorem test_decode_zero : decode 0b00000000000000000000000000000011#32 = .ok .zero := by decide
theorem test_decode_ecbEnc : decode 0b00000000000000000000000000001000#32 = .ok .ecbEnc := by decide
theorem test_decode_ecbDec : decode 0b00000000000000000000000000001001#32 = .ok .ecbDec := by decide
theorem test_decode_cbcEnc : decode 0b00000000000000000000000000001010#32 = .ok .cbcEnc := by decide
theorem test_decode_cbcDec : decode 0b00000000000000000000000000001011#32 = .ok .cbcDec := by decide

/-- 95 V46. -/
theorem test_decode_reserved :
    [0x4#32, 0x7#32, 0xC#32, 0xF#32, 0x10#32, 0x18#32, 0x80000001#32, 0xFFFFFFFF#32].all
      (fun w => decode w == .error .reservedEncoding) = true := by decide

/-! ## Primitives (40 R110 to R117, 95 V11 to V14) -/

theorem test_rotl : rotl 0x01234567#32 13 = 0x68ACE024#32 ∧ rotl 0x80000000#32 2 = 0x00000002#32 := by decide
theorem test_sbox_high_half : sbox 0x80#8 = 0xEA#8 ∧ sbox 0x71#8 = 0x00#8 ∧ sbox 0xFF#8 = 0x48#8 := by decide
theorem test_tau : tau 0xF002C39E#32 = 0x18E992B1#32 := by decide
theorem test_lData : lData 0x80000000#32 = 0x80820202#32 ∧ lData 0x01234567#32 = 0xFA26EB37#32 := by decide
theorem test_lKey : lKey 0x80000000#32 = 0x80401000#32 ∧ lKey 0x01234567#32 = 0xDA0F34E1#32 := by decide
theorem test_t : tData 0xDEADBEEF#32 = 0xC2D6A551#32 ∧ tKey 0xDEADBEEF#32 = 0x1D79E4A3#32 := by decide
/-- `CK[9]` byte 1 is the first wrap-around (95 V14). -/
theorem test_ck : ck 9 = 0xFC030A11#32 ∧ ck 31 = 0x646B7279#32 := by decide

/-- 00 R9 and 20 R63: the key's bytes and words. -/
theorem test_words_of_bytes :
    words #v[0x01#8, 0x23#8, 0x45#8, 0x67#8, 0x89#8, 0xab#8, 0xcd#8, 0xef#8, 0xfe#8, 0xdc#8, 0xba#8, 0x98#8,
      0x76#8, 0x54#8, 0x32#8, 0x10#8] = vKey := by decide

/-- 41 R134: the first subkey. -/
theorem test_first_subkey : kexpWord (kexpStart vKey) 0 = 0xF12186F9#32 := by decide
/-- 42 R144: the first round's word. -/
theorem test_first_round : roundF vKey 0xF12186F9#32 = 0x27FAD345#32 := by decide
/-- 95 P3: after five engine steps of `KEYEXP` the window is `K[5..8]`. -/
theorem test_kexp_five_rounds :
    kexpWindow vKey 5 = ⟨0x41662B61#32, 0x5A6AB19A#32, 0x7BA92077#32, 0x367360F4#32⟩ := by decide +kernel

/-! ## Commands, one step each, with the values of 95 -/

/-- 95 V35, V47. -/
theorem test_nop_keeps_all : view id (exec .nop (around ready)) = some ready := by decide
/-- 95 V45: `NOP` too is dropped while busy. -/
theorem test_nop_while_busy :
    view (fun e => (e.err.busy, e.seq)) (exec .nop (around busyKexp)) = some (true, busyKexp.seq) := by decide

/-- 95 V20: the window after `wkey` and `cmd KEYEXP`. -/
theorem test_keyexp_accepted :
    view (fun e => (e.x, e.key, statusWord e)) (exec .keyexp (around { ready with ivw := 0#4, dinw := 0#4, ivValid := false })) =
      some (⟨0xA292FFA1#32, 0xDF01FEBF#32, 0x99A12B0F#32, 0xC42410CC#32⟩, quadZero, 0x00000001#32) := by decide
/-- 95 V40b: a 12-byte key. -/
theorem test_keyexp_short_key :
    view statusWord (exec .keyexp (around { Engine.reset with keyw := 0b0111#4 })) = some 0x00070400#32 := by decide

/-- 95 V30. -/
theorem test_ivload_accepted :
    view (fun e => (e.chain, statusWord e)) (exec .ivload (around { Engine.reset with iv := vIv, ivw := 0b1111#4 })) =
      some (vIv, 0x00F0000A#32) := by decide
/-- 95 V41. -/
theorem test_ivload_short_iv :
    view statusWord (exec .ivload (around { Engine.reset with ivw := 0b0011#4 })) = some 0x00300800#32 := by decide

/-- 95 V35. -/
theorem test_zero_is_reset : view id (exec .zero (around ready)) = some Engine.reset := by decide
/-- 44 R171: `ZERO` cannot abort a running command. -/
theorem test_zero_while_busy :
    view (fun e => (e.rk, e.seq, e.err.busy)) (exec .zero (around busyCrypt)) =
      some (busyCrypt.rk, busyCrypt.seq, true) := by decide

theorem test_ecbEnc_accepted :
    view (fun e => (e.x, e.dinw, e.seq)) (exec .ecbEnc (around ready)) =
      some (vKey, 0#4, ⟨.crypt, 0, 0b00#2⟩) := by decide
/-- 95 V42: `E_NOKEY`, not `E_DLEN`. -/
theorem test_ecbEnc_no_key : view statusWord (exec .ecbEnc State.reset) = some 0x00002000#32 := by decide

theorem test_ecbDec_accepted :
    view (fun e => (e.x, e.seq)) (exec .ecbDec (around ready)) = some (vKey, ⟨.crypt, 0, 0b01#2⟩) := by decide
/-- 95 V44. -/
theorem test_ecbDec_short_block :
    view (fun e => (e.dinw, e.err.dLen)) (exec .ecbDec (around { ready with dinw := 0b0001#4 })) =
      some (0b0001#4, true) := by decide

/-- 95 V32: `P_1 ^ IV`. -/
theorem test_cbcEnc_accepted :
    view (fun e => (e.x, e.seq)) (exec .cbcEnc (around ready)) =
      some (⟨0x01224764#32, 0x8DAECBE8#32, 0xF6D5B093#32, 0x7A593C1F#32⟩, ⟨.crypt, 0, 0b10#2⟩) := by decide
/-- 95 V43: `E_NOIV` only. -/
theorem test_cbcEnc_no_iv :
    view statusWord (exec .cbcEnc (around { Engine.reset with keyValid := true, done := true, dinw := 0b1111#4 })) =
      some 0x0F004006#32 := by decide

theorem test_cbcDec_accepted :
    view (fun e => (e.x, e.csave, e.seq)) (exec .cbcDec (around ready)) =
      some (vKey, vKey, ⟨.crypt, 0, 0b11#2⟩) := by decide
/-- 95 V43b: check 4 before check 5. -/
theorem test_cbcDec_no_iv_first :
    view (fun e => (e.err.noIv, e.err.dLen)) (exec .cbcDec (around { ready with ivValid := false, dinw := 0#4 })) =
      some (true, false) := by decide

/-- 95 P4: the completing step of the first `CBC.DEC`: `DOUT = Y ^ CHAIN` and `CHAIN <- CSAVE`. -/
theorem test_cbcDec_completes :
    (fun e => (e.dout, e.chain, e.seq, e.done))
      (engineStep
        { ready with
          rk := Vector.replicate 32 0xF12186F9#32, seq := ⟨.crypt, 31, 0b11#2⟩
          x := ⟨0x60629F58#32, 0x7A593C1F#32, 0xF6D5B093#32, 0x8DAECBE8#32⟩
          csave := ⟨0xA9A26888#32, 0x3A336315#32, 0xBAC0C9C9#32, 0xFF350AB1#32⟩ }) =
      (vKey, ⟨0xA9A26888#32, 0x3A336315#32, 0xBAC0C9C9#32, 0xFF350AB1#32⟩, seqIdle, true) := by decide

/-! ## The register window, irq, reset -/

/-- 95 V48, V49: `wr CTRL, FFFFFFFF` stores 3; `clr 00007F00` leaves `DONE`. -/
theorem test_ctrl_stores_two_bits :
    view ctrlWord (busWrite 0x00 4 0xFFFFFFFF#32 (around ready)) = some 0x00000003#32 := by decide
theorem test_status_w1c :
    view (fun e => (e.done, e.err)) (busWrite 0x04 4 0x00007F00#32
      (around { ready with done := true, err := ⟨true, true, true, true, true, true, true⟩ })) =
      some (true, ErrFlags.none) := by decide
/-- 95 P3, line 16: `KEY` reads 0. -/
theorem test_key_write_only : readSlot ready (.key 0) = 0#32 ∧ readSlot ready (.iv 3) = 0x0C0D0E0F#32 := by decide
theorem test_din_write_marks :
    view (fun e => (e.din.w3, e.dinw)) (busWrite 0x3C 4 5#32 State.reset) = some (5#32, 0b1000#4) := by decide
theorem test_reserved_slot :
    view id (busWrite 0x50 4 7#32 (around ready)) = some ready := by decide
theorem test_refused_accesses :
    refusedWith .notAnAccess (busRead 0x04 1 State.reset) = true ∧
    refusedWith .notAnAccess (busWrite 0x06 4 0#32 State.reset) = true ∧
    refusedWith .outsideWindow (busRead 0x100 4 State.reset) = true := by decide
/-- 95 V49. -/
theorem test_irq :
    irq { ready with ctrl := ⟨true, false⟩, done := true } = true ∧
    irq { ready with ctrl := ⟨true, false⟩, err := ErrFlags.none.set .eOp } = false ∧
    irq { ready with ctrl := ⟨false, true⟩, err := ErrFlags.none.set .eOp } = true := by decide
/-- 70 R260: reset abandons a running command. -/
theorem test_reset_input : view id (performEvent .reset (around busyCrypt)) = some Engine.reset := by decide

/-! ## Step -/

/-- The first step from reset runs a placed word. -/
theorem test_step_first_command :
    view statusWord (step (State.reset.withFetchWord 32 0x00000008)) = some 0x00002000#32 := by decide
/-- A reserved word raises `E_OP` (60 R225). -/
theorem test_step_reserved_word :
    view statusWord (step (State.reset.withFetchWord 32 0x00000011)) = some 0x00000200#32 := by decide
/-- While busy a placed word still comes next, and is dropped (60 R224). -/
theorem test_step_while_busy :
    view (fun e => (e.err.busy, e.seq)) (step ((around busyKexp).withFetchWord 32 0xFFFFFFFF)) =
      some (true, busyKexp.seq) := by decide
/-- With nothing pending a busy engine completes its last round. -/
theorem test_step_engine :
    view (fun e => (e.seq, e.keyValid, e.done)) (step (around busyKexp)) = some (seqIdle, true, true) := by decide

/-! ## Host layer (95 part 1, V50 to V52) -/

theorem test_pad_aligned : (pad (List.replicate 16 0x30#8)).drop 16 = List.replicate 16 0x10#8 := by decide
theorem test_unpad_zero : unpad [0x11#8, 0x00#8] = .ok [0x11#8, 0x00#8] := by decide
theorem test_unpad_overrun : unpad [0x11#8] = .refused .unpadOverrun := by decide
theorem test_base64 : base64Encode [0x66#8, 0x6f#8] = [90, 109, 56, 61] := by decide
theorem test_base64_bad_length : base64Decode [90, 103, 61] = .error .base64DecodeError := by decide
theorem test_utf8 : utf8EncodePoint 0x56FD = [0xe5#8, 0x9b#8, 0xbd#8] ∧
    utf8DecodePoints [0xf0#8, 0x9f#8, 0x98#8, 0x80#8] = some [0x1F600] := by decide
theorem test_utf8_overlong : utf8Decode [0xc0#8, 0x80#8] = .refused .malformedUtf8 := by decide
/-- 45 R203: the source's error examples. -/
theorem test_driver_errors :
    encryptECB [120] (some (List.replicate 5 0#8)) = .error .invalidKeyLength ∧
    decryptECB [110, 111, 116, 45, 98, 97, 115, 101, 54, 52, 33, 33] none = .error .base64DecodeError := by decide
/-- 95 P5: the words of the default key. -/
theorem test_default_key :
    words (block16 defaultKey) = ⟨0x474A7773#32, 0x58585F42#32, 0x7A573D67#32, 0x4A574A57#32⟩ ∧
    words (block16 defaultIv) = ⟨0x5A6B525F#32, 0x53694E6F#32, 0x534F4654#32, 0x3D353638#32⟩ := by decide
/-- 30 R98, R99: the encoding of `rdout` and of `cmd KEYEXP`. -/
theorem test_script :
    expandScript [.cmd .keyexp, .rdout] =
      [.write 0x08 4 1#32, .read 0x40 4, .read 0x44 4, .read 0x48 4, .read 0x4C 4] := by decide

/-! ## Witnesses: states and operands that meet the hypotheses of each statement -/

theorem witness_DecodeFollowsOpcodeMap :
    (4 ≤ (7#32).toNat ∧ (7#32).toNat ≤ 7) ∧ (12 ≤ (12#32).toNat ∧ (12#32).toNat ≤ 15) ∧
    (0x00000010#32).extractLsb' 4 28 ≠ 0#28 := by decide

theorem witness_CmdWriteChecksThenDispatches :
    busy busyKexp = true ∧ busy ready = false ∧ 0x0000000B#32 = encode .cbcDec ∧
    ([Instr.nop, .keyexp, .ivload, .zero, .ecbEnc, .ecbDec, .cbcEnc, .cbcDec].all
      (fun i => 0x00000004#32 != encode i) = true) := by decide

theorem witness_OneFlagInPriorityOrder :
    busy busyKexp = true ∧ (12#32 ∉ [0x0#32, 0x1#32, 0x2#32, 0x3#32, 0x8#32, 0x9#32, 0xA#32, 0xB#32]) ∧
    Engine.reset.keyw ≠ 0b1111#4 ∧ Engine.reset.ivw ≠ 0b1111#4 ∧ Engine.reset.keyValid = false ∧
    { ready with ivValid := false }.ivValid = false ∧ Engine.reset.dinw ≠ 0b1111#4 := by decide

theorem witness_BusyDropsEveryCommand :
    busy busyCrypt = true ∧ busy ready = false ∧
    view busy (busWrite 0x08 4 0x0000000B#32 (around ready)) = some true := by decide

theorem witness_ReservedWordRaisesEOp :
    busy Engine.reset = false ∧ 4 ≤ (4#32).toNat ∧ (4#32).toNat ≤ 7 ∧ (15#32).toNat ≤ 15 := by decide

theorem witness_NopDoesNothing : busy ready = false ∧ busy busyKexp = true := by decide
theorem witness_ZeroRestoresReset : busy ready = false ∧ busy busyCrypt = true := by decide

theorem witness_IvloadLoadsChain :
    (busy ready = false ∧ ready.ivw = 0b1111#4) ∧ (busy Engine.reset = false ∧ Engine.reset.ivw ≠ 0b1111#4) ∧
    busy busyKexp = true := by decide

theorem witness_KeyexpDerivesSchedule :
    (busy ready = false ∧ ready.keyw = 0b1111#4) ∧
    (busy { ready with keyw := 0b0111#4 } = false ∧ { ready with keyw := 0b0111#4 }.keyw ≠ 0b1111#4) ∧
    busy busyKexp = true := by decide

/-- For `EcbEncEncryptsBlock` and `EcbDecDecryptsBlock`. -/
theorem witness_EcbCommands :
    (busy ready = false ∧ ready.keyValid = true ∧ ready.dinw = 0b1111#4) ∧
    (busy Engine.reset = false ∧ Engine.reset.keyValid = false) ∧
    (let e : Engine := { ready with dinw := 0b0001#4 }
     busy e = false ∧ e.keyValid = true ∧ e.dinw ≠ 0b1111#4) ∧
    busy busyKexp = true := by decide

/-- For `CbcEncChainsCiphertext` and `CbcDecChainsCiphertext`. -/
theorem witness_CbcCommands :
    (busy ready = false ∧ ready.keyValid = true ∧ ready.ivValid = true ∧ ready.dinw = 0b1111#4) ∧
    (busy Engine.reset = false ∧ Engine.reset.keyValid = false) ∧
    (let e : Engine := { ready with ivValid := false }
     busy e = false ∧ e.keyValid = true ∧ e.ivValid = false) ∧
    (let e : Engine := { ready with dinw := 0b0111#4 }
     busy e = false ∧ e.keyValid = true ∧ e.ivValid = true ∧ e.dinw ≠ 0b1111#4) ∧
    busy busyCrypt = true := by decide

/-- A next state exists for each command on one state. -/
theorem witness_CommandsFrame :
    ∀ i ∈ [Instr.nop, .keyexp, .ivload, .zero, .ecbEnc, .ecbDec, .cbcEnc, .cbcDec],
      ∃ s', exec i (around ready) = .next s' := by
  intro i _
  cases i <;> exact ⟨_, rfl⟩

theorem witness_KexpStepDoesOneRound :
    busyKexp.seq.phase = .kexp ∧ busyKexp.seq.rnd = 31 ∧
    (1 : Fin 32).val = { busyKexp with seq := ⟨.kexp, 0, 0b00#2⟩ }.seq.rnd.val + 1 ∧
    (31 : Fin 32).val = { busyKexp with seq := ⟨.kexp, 30, 0b00#2⟩ }.seq.rnd.val + 1 := by decide

theorem witness_CryptStepDoesOneRound :
    busyCrypt.seq.phase = .crypt ∧ busyCrypt.seq.rnd = 31 ∧ busyCrypt.seq.op = 0b11#2 ∧
    (31 : Fin 32).val = (⟨.crypt, 30, 0b00#2⟩ : Seq).rnd.val + 1 ∧ (0b01#2).getLsbD 1 = false := by decide

theorem witness_AgentsTakeTurns :
    (busy busyKexp = true ∧ (around busyKexp).pending = []) ∧
    (busy busyKexp = true ∧ { around busyKexp with budget := some 0 }.budget = some 0) ∧
    (busy ready = false ∧ (around ready).pending = []) ∧
    (busy ready = false ∧ { around ready with pending := [.observeIrq] }.pending = .observeIrq :: []) ∧
    { around busyKexp with pending := [.reset], budget := some 1 }.budget = some (0 + 1) := by decide

theorem witness_StepRunsWrittenCommand :
    decode 0x00000003#32 = .ok .zero ∧
    { around ready with pending := [.write 0x08 4 0x00000003#32] }.pending = .write 0x08 4 0x00000003#32 :: [] ∧
    busy ready = false ∧ busy busyKexp = true ∧ { around busyKexp with budget := some 1 }.budget = some (0 + 1) := by
  decide

/-- A step that moves the sequencer, from a state in phase `KEXP`. -/
theorem witness_SequencerTransitions : ∃ s', step (around busyKexp) = .next s' := ⟨_, rfl⟩

theorem witness_OnlyAlignedWordAccessesExist :
    (4 = 4 ∧ 0xFC % 4 = 0 ∧ 0xFC < 256) ∧ ¬(4 = 4 ∧ 0x100 % 4 = 0 ∧ 0x100 < 256) ∧
    ¬(4 = 4 ∧ 0x02 % 4 = 0 ∧ 0x02 < 256) ∧ ¬(8 = 4 ∧ 0x00 % 4 = 0 ∧ 0x00 < 256) := by decide

theorem witness_SlotMapAndReservedSlots :
    (0x0C % 4 = 0 ∧ 0x0C < 256) ∧ (0x50 % 4 = 0 ∧ 0x50 < 256 ∧ 0x50 ≤ 0x50) ∧
    (0xFC % 4 = 0 ∧ 0xFC < 256 ∧ 0x50 ≤ 0xFC) := by decide

theorem witness_CtrlHoldsTwoEnables :
    (let e : Engine := { ready with ctrl := ⟨true, true⟩, done := true, err := ErrFlags.none.set .eNoIv }
     e.ctrl.die = true ∧ e.done = true ∧ e.ctrl.eie = true ∧ e.err.get .eNoIv = true) := by decide

theorem witness_ResetValues :
    Engine.reset = State.reset.engine ∧
    ∃ s : State, busy s.engine = false ∧ exec .zero s = .next (s.withEngine Engine.reset) :=
  ⟨rfl, around ready, rfl, rfl⟩

/-- The invariant is met by a state in each phase that a run reaches, and steps from it. -/
theorem witness_StepKeepsInvariant :
    stateInv State.reset ∧
    ∃ s', step (State.reset.withFetchWord 32 0x00000002) = .next s' := by
  refine ⟨⟨?_, ?_⟩, ⟨_, rfl⟩⟩
  · simp [seqInv, State.reset, Engine.reset, seqIdle]
  · simp [scheduleInv, State.reset, Engine.reset, seqIdle]

theorem witness_ObedientHostNeverStops :
    hostObeys { around ready with pending := [.read 0xFC 4, .write 0x08 4 0#32, .poll, .observeIrq, .reset] } := by
  simp [hostObeys, eventAllowed]

theorem witness_RoundKeysWrittenOnlyByKeyexp :
    view (fun e => decide (e.rk ≠ busyKexp.rk)) (step (around busyKexp)) = some true := by decide

theorem witness_OutputPublishedOnlyOnCompletion :
    view (fun e => decide (e.dout ≠ busyCrypt.dout)) (step (around busyCrypt)) = some true := by decide

theorem witness_ChainWrittenOnlyByIvloadAndCbc :
    view (fun e => decide (e.chain ≠ busyCrypt.chain)) (step (around busyCrypt)) = some true := by decide

theorem witness_ErrorFlagsAreSticky :
    (raise .eOp ready).err.get .eOp = true ∧
    view (fun e => e.err.get .eOp)
      (step { around (raise .eOp ready) with pending := [.write 0x04 4 0x00000200#32] }) = some false := by decide

theorem witness_RunningCommandIsUndisturbed :
    busy busyCrypt = true ∧ (∃ s', performEvent (.write 0x30 4 9#32) (around busyCrypt) = .next s') ∧
    sameDatapath busyCrypt { busyCrypt with din := quadZero, done := true } :=
  ⟨rfl, ⟨_, rfl⟩, rfl, rfl, rfl, rfl, rfl, rfl, rfl, rfl⟩

theorem witness_HiddenStateIsUnreadable :
    sameView busyCrypt { busyCrypt with x := vIv, chain := quadZero, key := quadZero, rk := Vector.replicate 32 1#32 } :=
  ⟨rfl, rfl, rfl, rfl, rfl, rfl, rfl, rfl, rfl, rfl, rfl, rfl⟩

theorem witness_RotlMovesEveryBit : 1 ≤ 31 ∧ 31 ≤ 31 ∧ (0 : Nat) < 32 ∧ 31 < 32 := by decide

theorem witness_WaitEnds : { around busyKexp with pending := [.poll] }.pending = .poll :: [] := rfl

/-- One block, CBC, unpadded: the premises of `DriverComputesTheMessage`. -/
theorem witness_DriverComputesTheMessage :
    ∃ sc : List ScriptInstr, busy State.reset.engine = false ∧ State.reset.pending = [] ∧
      callScript ⟨.cbc, .encrypt, false, false, defaultKey, defaultIv, List.replicate 16 0x61#8⟩ = .ok sc :=
  ⟨_, rfl, rfl, rfl⟩

/-- An engine that holds the schedule of the default key: the premises of `DriverReusesReadySchedule`. -/
theorem witness_DriverReusesReadySchedule :
    ∃ (s : State) (sc : List ScriptInstr), busy s.engine = false ∧ s.pending = [] ∧ s.engine.keyValid = true ∧
      s.engine.rk = keyExpand (block16 defaultKey) ∧
      callScript ⟨.cbc, .decrypt, true, true, defaultKey, defaultIv, List.replicate 16 0x61#8⟩ = .ok sc :=
  ⟨{ State.reset with
      engine := { Engine.reset with keyValid := true, rk := keyExpand (block16 defaultKey) } },
    _, rfl, rfl, rfl, rfl, rfl⟩

theorem witness_FacadeRoundTrip :
    [0x53, 0x56FD, 0x10FFFF, 0xD7FF, 0xE000].all isScalar = true ∧ defaultKey.length = 16 ∧ defaultIv.length = 16 := by
  decide

theorem witness_UnpadDropsByLastByte :
    (3#8).toNat = [0x11#8, 0x22#8].length + 1 ∧ ([] : Bytes).length + 1 < (0xFF#8).toNat := by decide

theorem witness_Utf8RoundTrip : [0x7F, 0x80, 0x7FF, 0x800, 0xFFFF, 0x10000].all isScalar = true := by decide

theorem witness_DriverChecksInOrder :
    (List.replicate 5 0#8).length ≠ 16 ∧ defaultKey.length = 16 ∧ (List.replicate 10 0#8).length ≠ 16 ∧
    defaultIv.length = 16 ∧ (List.replicate 15 0#8).length % 16 ≠ 0 := by decide

theorem witness_CiphertextLength :
    ∃ out : Bytes, callResult ⟨.ecb, .encrypt, true, false, defaultKey, defaultIv, []⟩ = .ok out := ⟨_, rfl⟩

end Sys2Proof.Tests
end

section
/-! PROOFS. Words and bytes (spec/00_scope.md R9). The bits of a packed word and of a word's byte come first; from
them `packWord` and `wordByte` are inverse, and so are `words` and `bytes`, whose elements are read as byte `j` of
word `i`. -/

namespace Sys2Proof.Machine

open Sys2Proof

/-- `wordByte w j` is the bit range `w[31-8j : 24-8j]` as 00 R9 writes it. -/
theorem wordByte_eq_extractLsb' (w : Word) (j : Nat) : wordByte w j = w.extractLsb' (24 - 8 * j) 8 := rfl

theorem getLsbD_wordByte (w : Word) (j k : Nat) :
    (wordByte w j).getLsbD k = (decide (k < 8) && w.getLsbD (24 - 8 * j + k)) := by
  rw [wordByte_eq_extractLsb', BitVec.getLsbD_extractLsb']

/-- Each bit of a packed word comes from one byte: the other three are shifted past it or end below it. -/
theorem getLsbD_packWord (b0 b1 b2 b3 : Byte) (k : Nat) :
    (packWord b0 b1 b2 b3).getLsbD k =
      if k < 8 then b3.getLsbD k else if k < 16 then b2.getLsbD (k - 8)
      else if k < 24 then b1.getLsbD (k - 16) else b0.getLsbD (k - 24) := by
  simp only [packWord, BitVec.getLsbD_or, BitVec.getLsbD_shiftLeft, BitVec.getLsbD_setWidth]
  split_ifs <;> grind

/-- The bytes are given as a function of their position, so that one statement serves the four positions. -/
theorem wordByte_packWord (c : Fin 4 → Byte) (j : Fin 4) :
    wordByte (packWord (c 0) (c 1) (c 2) (c 3)) j.val = c j := by
  ext k hk
  rw [← BitVec.getLsbD_eq_getElem, getLsbD_wordByte, getLsbD_packWord]
  match j with
  | 0 | 1 | 2 | 3 => grind

@[simp] theorem packWord_wordByte (w : Word) :
    packWord (wordByte w 0) (wordByte w 1) (wordByte w 2) (wordByte w 3) = w := by
  ext k hk
  rw [← BitVec.getLsbD_eq_getElem, getLsbD_packWord]
  simp only [getLsbD_wordByte]
  split_ifs <;> grind

theorem quadGet_words (b : Bytes16) (i : Fin 4) :
    quadGet (words b) i = packWord b[4 * i.val] b[4 * i.val + 1] b[4 * i.val + 2] b[4 * i.val + 3] := by
  match i with
  | 0 | 1 | 2 | 3 => rfl

theorem getElem_bytes (q : Quad) (i j : Fin 4) :
    (bytes q)[4 * i.val + j.val] = wordByte (quadGet q i) j.val := by
  fin_cases i <;> fin_cases j <;> rfl

/-- A 16-byte sequence is known from byte `j` of each word `i`. -/
theorem bytes16_ext {a b : Bytes16} (h : ∀ i j : Fin 4, a[4 * i.val + j.val] = b[4 * i.val + j.val]) : a = b := by
  refine Vector.ext fun k hk => ?_
  have hbyte := h ⟨k / 4, by omega⟩ ⟨k % 4, by omega⟩
  simpa only [Nat.div_add_mod] using hbyte

theorem bytes16_toList_getD (b : Bytes16) (i j : Fin 4) :
    b.toList.getD (4 * i.val + j.val) 0#8 = b[4 * i.val + j.val] := by
  rw [List.getD_eq_getElem _ _ (by simp; omega), Vector.getElem_toList]

@[simp] theorem bytes_words (b : Bytes16) : bytes (words b) = b :=
  bytes16_ext fun i j => by
    rw [getElem_bytes, quadGet_words]
    exact wordByte_packWord (fun n => b[4 * i.val + n.val]) j

@[simp] theorem words_bytes (q : Quad) : words (bytes q) = q :=
  Quad.ext (packWord_wordByte q.w0) (packWord_wordByte q.w1) (packWord_wordByte q.w2) (packWord_wordByte q.w3)

/-- Byte `j` of word `i`, in the direction from words to bytes. -/
theorem toList_getD_bytes (q : Quad) (i j : Fin 4) :
    (bytes q).toList.getD (4 * i.val + j.val) 0#8 = (quadGet q i).extractLsb' (24 - 8 * j.val) 8 := by
  rw [bytes16_toList_getD, getElem_bytes, wordByte_eq_extractLsb']

/-- Settles O45: the direction from bytes to words is the other one read at `words b`, since `bytes (words b) = b`. -/
theorem wordsAndBytesAreInverse : Obligations.WordsAndBytesAreInverse := by
  unfold Obligations.WordsAndBytesAreInverse
  refine ⟨fun b i j => ?_, toList_getD_bytes, bytes_words, words_bytes⟩
  rw [← toList_getD_bytes, bytes_words]

end Sys2Proof.Machine
end

section
/-! PROOFS. The two register words the host reads and the output made from them (spec/10_state.md R31, R32, R36),
and their values after reset (R39). -/

namespace Sys2Proof.Machine

open Sys2Proof

/-! ## Accesses that name a slot -/

theorem busRead_of_slotAt {off bytes : Nat} {slot : Slot} (h : slotAt off bytes = .ok slot) (s : State) :
    busRead off bytes s = .next { s with readLog := s.readLog ++ [readSlot s.engine slot] } := by
  simp [busRead, h]

theorem busWrite_of_slotAt {off bytes : Nat} {slot : Slot} (h : slotAt off bytes = .ok slot) (hcmd : slot ≠ .cmd)
    (v : Word) (s : State) :
    busWrite off bytes v s = .next (s.withEngine (writeSlot s.engine slot v)) := by
  obtain ⟨r, herr, -⟩ | ⟨hok, -⟩ | ⟨slot', -, hok, hwrite⟩ := busWrite_cases off bytes v s
  · simp [h] at herr
  · simp [h, hcmd] at hok
  · obtain rfl : slot = slot' := by simpa [h] using hok
    exact hwrite

theorem slotAt_ctrl : slotAt 0x00 4 = .ok .ctrl := rfl

/-! ## The bits of the two words -/

theorem getLsbD_ctrlWord (e : Engine) (b : Nat) :
    (ctrlWord e).getLsbD b = if b = 0 then e.ctrl.die else if b = 1 then e.ctrl.eie else false := by
  simp only [ctrlWord, BitVec.getLsbD_append, BitVec.getLsbD_ofBool, BitVec.getLsbD_zero]
  iterate 2 refine ite_congr (propext (by omega)) (fun h => by simp [h]) (fun h => ?_)
  rfl

/-- The table of 10 R32, from bit 0 up: the fields are met in the order in which `statusWord` appends them. -/
theorem getLsbD_statusWord (e : Engine) (b : Nat) :
    (statusWord e).getLsbD b =
      if b = 0 then busy e else if b = 1 then e.done else if b = 2 then e.keyValid else if b = 3 then e.ivValid
      else if b < 8 then false else if b < 15 then e.err.bits.getLsbD (b - 8) else if b < 16 then false
      else if b < 20 then e.keyw.getLsbD (b - 16) else if b < 24 then e.ivw.getLsbD (b - 20)
      else e.dinw.getLsbD (b - 24) := by
  simp only [statusWord, BitVec.getLsbD_append, BitVec.getLsbD_ofBool, BitVec.getLsbD_zero]
  simp only [Nat.sub_sub, Nat.reduceAdd]
  iterate 9 refine ite_congr (propext (by omega)) (fun h => by simp [h]) (fun h => ?_)
  rw [ite_eq_left_iff, not_lt]
  exact fun hwide => (BitVec.getLsbD_of_ge _ _ hwide).symm

/-- `STATUS[14:8]` are the error flags. -/
theorem extractLsb'_statusWord_err (e : Engine) : (statusWord e).extractLsb' 8 7 = e.err.bits := by
  ext k hk
  rw [← BitVec.getLsbD_eq_getElem, ← BitVec.getLsbD_eq_getElem, BitVec.getLsbD_extractLsb', getLsbD_statusWord]
  grind

/-! ## The error flags together -/

/-- The cause code of an error is its flag's bit number in `STATUS` (10 R35). -/
theorem ErrFlags.getLsbD_bits (f : ErrFlags) (x : Err) : f.bits.getLsbD (x.code - 8) = f.get x := by
  simp only [ErrFlags.bits, BitVec.getLsbD_append, BitVec.getLsbD_ofBool]
  cases x <;> simp [Err.code, ErrFlags.get]

/-- Every bit of `STATUS[14:8]` is some error's. -/
theorem Err.exists_code_sub_eq {k : Nat} (hk : k < 7) : ∃ x : Err, x.code - 8 = k := by
  interval_cases k
  exacts [⟨.eBusy, rfl⟩, ⟨.eOp, rfl⟩, ⟨.eKeyLen, rfl⟩, ⟨.eIvLen, rfl⟩, ⟨.eDLen, rfl⟩, ⟨.eNoKey, rfl⟩, ⟨.eNoIv, rfl⟩]

theorem ErrFlags.bits_eq_zero_iff (f : ErrFlags) : f.bits = 0#7 ↔ ∀ x, f.get x = false := by
  constructor
  · intro h x
    rw [← f.getLsbD_bits, h, BitVec.getLsbD_zero]
  · intro h
    ext k hk
    obtain ⟨x, rfl⟩ := Err.exists_code_sub_eq hk
    rw [← BitVec.getLsbD_eq_getElem, f.getLsbD_bits, h, BitVec.getElem_zero]

theorem ErrFlags.any_iff (f : ErrFlags) : f.any = true ↔ ∃ x, f.get x = true := by
  constructor
  · intro h
    simp only [ErrFlags.any, Bool.or_eq_true] at h
    rcases h with (((((h | h) | h) | h) | h) | h) | h
    exacts [⟨.eBusy, h⟩, ⟨.eOp, h⟩, ⟨.eKeyLen, h⟩, ⟨.eIvLen, h⟩, ⟨.eDLen, h⟩, ⟨.eNoKey, h⟩, ⟨.eNoIv, h⟩]
  · rintro ⟨x, h⟩
    cases x <;> simp_all [ErrFlags.any, ErrFlags.get]

theorem ErrFlags.any_eq_bits_ne_zero (f : ErrFlags) : f.any = decide (f.bits ≠ 0#7) := by
  rw [Bool.eq_iff_iff, f.any_iff, decide_eq_true_iff, Ne, f.bits_eq_zero_iff]
  simp

/-! ## The level of `irq`, and the engine an accepted `ZERO` leaves -/

theorem irq_of_die {e : Engine} (hdie : e.ctrl.die = true) (hdone : e.done = true) : irq e = true := by
  simp [irq, hdie, hdone]

theorem irq_of_eie {e : Engine} {x : Err} (heie : e.ctrl.eie = true) (hx : e.err.get x = true) : irq e = true := by
  simp [irq, heie, e.err.any_iff.mpr ⟨x, hx⟩]

/-- `ZERO` accepted (44 R171). -/
theorem exec_zero_of_idle {s : State} (h : busy s.engine = false) :
    exec .zero s = .next (s.withEngine Engine.reset) := by
  simp [exec, execZero, runCommand, noCheck, acceptZero, h]

theorem State.withEngine_inj {s : State} {e e' : Engine} : s.withEngine e = s.withEngine e' ↔ e = e' :=
  ⟨congrArg State.engine, congrArg s.withEngine⟩

/-! ## The statements -/

/-- Settles O30: the four terms of `irq` are read back from the two words. -/
theorem irqIsALevelOfTheRegisters : Obligations.IrqIsALevelOfTheRegisters := by
  unfold Obligations.IrqIsALevelOfTheRegisters
  intro e
  rw [extractLsb'_statusWord_err, ← ErrFlags.any_eq_bits_ne_zero, getLsbD_ctrlWord, getLsbD_ctrlWord,
    getLsbD_statusWord]
  rfl

/-- Settles O25: offset 0 names `CTRL`, whose word holds the two enables and nothing else. -/
theorem ctrlHoldsTwoEnables : Obligations.CtrlHoldsTwoEnables := by
  unfold Obligations.CtrlHoldsTwoEnables
  intro s v
  refine ⟨busWrite_of_slotAt slotAt_ctrl nofun v s, ctrlWord s.engine, busRead_of_slotAt slotAt_ctrl s,
    ?_, ?_, fun b hb => ?_, irq_of_die, fun x => irq_of_eie, rfl, rfl⟩
  · rw [getLsbD_ctrlWord, if_pos rfl]
  · rw [getLsbD_ctrlWord, if_neg one_ne_zero, if_pos rfl]
  · rw [getLsbD_ctrlWord, if_neg (by omega), if_neg (by omega)]

/-- Settles O32: an accepted `ZERO` leaves the reset engine too, so the table of 10 R39 is read once. -/
theorem resetValues : Obligations.ResetValues := by
  unfold Obligations.ResetValues
  intro e h
  have hreset : e = Engine.reset := by
    obtain rfl | ⟨s, hidle, hzero⟩ := h
    · rfl
    · rw [exec_zero_of_idle hidle, Host.Outcome.next.injEq, State.withEngine_inj] at hzero
      exact hzero.symm
  subst hreset
  refine ⟨by decide, by decide, rfl, rfl, rfl, rfl, rfl, fun i => ?_, rfl, rfl, rfl, rfl⟩
  exact Vector.getElem_replicate i.isLt

end Sys2Proof.Machine
end

section
/-! PROOFS. The register window (spec/20_memory.md R61, R64, R65): which accesses exist, the slot each offset names,
and the reserved slots. -/

namespace Sys2Proof.Machine

open Sys2Proof

/-! ## Which accesses exist -/

theorem slotAt_of_access {off : Nat} (halign : off % 4 = 0) (hwin : off < 256) :
    slotAt off 4 = .ok (slotNumbered (off / 4)) :=
  (slotAt_ok_iff ..).mpr ⟨rfl, halign, hwin, rfl⟩

theorem exists_slotAt_eq_error {off bytes : Nat} (h : ¬(bytes = 4 ∧ off % 4 = 0 ∧ off < 256)) :
    ∃ r, slotAt off bytes = .error r := by
  cases hslot : slotAt off bytes with
  | error r => exact ⟨r, rfl⟩
  | ok slot =>
    obtain ⟨hsize, halign, hwin, -⟩ := (slotAt_ok_iff ..).mp hslot
    exact absurd ⟨hsize, halign, hwin⟩ h

theorem busRead_of_slotAt_error {off bytes : Nat} {r : Refusal} (h : slotAt off bytes = .error r) (s : State) :
    busRead off bytes s = .refused r := by
  simp [busRead, h]

theorem busWrite_of_slotAt_error {off bytes : Nat} {r : Refusal} (h : slotAt off bytes = .error r) (v : Word)
    (s : State) : busWrite off bytes v s = .refused r := by
  simp [busWrite, h]

theorem busWrite_cmd {off bytes : Nat} (h : slotAt off bytes = .ok .cmd) (v : Word) (s : State) :
    busWrite off bytes v s = writeCmd v s := by
  simp [busWrite, h]

/-- A write to a slot always answers, and changes the engine only (20 R72). -/
theorem busWrite_eq_next {off bytes : Nat} {slot : Slot} (h : slotAt off bytes = .ok slot) (v : Word) (s : State) :
    ∃ e, busWrite off bytes v s = .next (s.withEngine e) := by
  by_cases hcmd : slot = .cmd
  · subst hcmd
    rw [busWrite_cmd h]
    exact writeCmd_eq_next v s
  · exact ⟨_, busWrite_of_slotAt h hcmd v s⟩

/-! ## The slot map -/

theorem slotAt_status : slotAt 0x04 4 = .ok .status := rfl

theorem slotAt_cmd : slotAt 0x08 4 = .ok .cmd := rfl

theorem slotAt_key (i : Fin 4) : slotAt (0x10 + 4 * i.val) 4 = .ok (.key i) := by
  match i with
  | 0 | 1 | 2 | 3 => rfl

theorem slotAt_iv (i : Fin 4) : slotAt (0x20 + 4 * i.val) 4 = .ok (.iv i) := by
  match i with
  | 0 | 1 | 2 | 3 => rfl

theorem slotAt_din (i : Fin 4) : slotAt (0x30 + 4 * i.val) 4 = .ok (.din i) := by
  match i with
  | 0 | 1 | 2 | 3 => rfl

theorem slotAt_dout (i : Fin 4) : slotAt (0x40 + 4 * i.val) 4 = .ok (.dout i) := by
  match i with
  | 0 | 1 | 2 | 3 => rfl

theorem slotNumbered_reserved {n : Nat} (h : n = 3 ∨ 20 ≤ n) : slotNumbered n = .reserved := by
  obtain rfl | hn := h
  · rfl
  · obtain ⟨k, rfl⟩ := Nat.exists_eq_add_of_le' hn
    rfl

theorem slotAt_reserved {off : Nat} (halign : off % 4 = 0) (hwin : off < 256) (h : off = 0x0C ∨ 0x50 ≤ off) :
    slotAt off 4 = .ok .reserved := by
  have hnumber : off / 4 = 3 ∨ 20 ≤ off / 4 := by omega
  rw [slotAt_of_access halign hwin, slotNumbered_reserved hnumber]

/-! ## The statements -/

/-- Settles O23: an access exists iff its offset names a slot; reads and writes of a slot answer, and all others
are refused with the reason `slotAt` gives. -/
theorem onlyAlignedWordAccessesExist : Obligations.OnlyAlignedWordAccessesExist := by
  unfold Obligations.OnlyAlignedWordAccessesExist
  intro off size v s
  constructor
  · rintro ⟨rfl, halign, hwin⟩
    have hslot := slotAt_of_access halign hwin
    obtain ⟨e, hwrite⟩ := busWrite_eq_next hslot v s
    exact ⟨⟨_, busRead_of_slotAt hslot s⟩, ⟨_, hwrite⟩⟩
  · intro hnone
    obtain ⟨r, herr⟩ := exists_slotAt_eq_error hnone
    exact ⟨⟨r, busRead_of_slotAt_error herr s⟩, ⟨r, busWrite_of_slotAt_error herr v s⟩⟩

/-- Settles O24: the offsets outside the map name the slot `reserved`, which reads 0 and has no storage. -/
theorem slotMapAndReservedSlots : Obligations.SlotMapAndReservedSlots := by
  unfold Obligations.SlotMapAndReservedSlots
  refine ⟨⟨slotAt_ctrl, slotAt_status, slotAt_cmd⟩,
    fun i => ⟨slotAt_key i, slotAt_iv i, slotAt_din i, slotAt_dout i⟩, fun off v s halign hwin hres => ?_⟩
  have hslot := slotAt_reserved halign hwin hres
  exact ⟨busRead_of_slotAt hslot s, busWrite_of_slotAt hslot nofun v s⟩

end Sys2Proof.Machine
end

section
/-! PROOFS. The decoder over all words, and a write to `CMD` (spec/30_encoding.md R91, R93, R96): the encodings of
the eight commands are the command words, and every other word is reserved. -/

namespace Sys2Proof.Machine

open Sys2Proof

/-! ## Command words and reserved words -/

theorem decode_eq_ok_iff {w : Word} {i : Instr} : decode w = .ok i ↔ w = encode i := by
  constructor
  · exact fun h => (encode_of_decode h).symm
  · rintro rfl
    exact decode_encode i

/-- A clause of the opcode map, from the value that encodes the command. -/
theorem decode_of_eq_value {v w : Word} {i : Instr} (hv : encode i = v) (hw : w = v) : decode w = .ok i :=
  decode_eq_ok_iff.mpr (hw.trans hv.symm)

theorem decode_eq_error_iff {w : Word} : decode w = .error .reservedEncoding ↔ ∀ i, w ≠ encode i := by
  constructor
  · rintro herr i rfl
    simp at herr
  · intro hnone
    cases h : decode w with
    | error r => cases r; rfl
    | ok i => exact absurd (decode_eq_ok_iff.mp h) (hnone i)

/-- The field `ZERO28` of every command word (30 R90). -/
theorem extractLsb'_encode_zero28 (i : Instr) : (encode i).extractLsb' 4 28 = 0#28 :=
  BitVec.extractLsb'_append_eq_left

/-- The rows of the opcode map that are not reserved (30 R93). -/
theorem toNat_encode_range (i : Instr) : (encode i).toNat ≤ 3 ∨ 8 ≤ (encode i).toNat ∧ (encode i).toNat ≤ 11 := by
  cases i <;> decide

/-! ## A write to `CMD` -/

theorem writeCmd_of_busy {s : State} (h : busy s.engine = true) (v : Word) :
    writeCmd v s = .next (s.withEngine (raise .eBusy s.engine)) := by
  simp [writeCmd, h]

theorem writeCmd_of_reserved {v : Word} {s : State} (hidle : busy s.engine = false)
    (hres : decode v = .error .reservedEncoding) :
    writeCmd v s = .next (s.withEngine (raise .eOp s.engine)) := by
  simp [writeCmd, hidle, hres]

/-! ## The statements -/

/-- Settles O2: the eight values are the commands' encodings, and each reserved row is one that no encoding meets. -/
theorem decodeFollowsOpcodeMap : Obligations.DecodeFollowsOpcodeMap := by
  unfold Obligations.DecodeFollowsOpcodeMap
  intro w
  refine ⟨decode_of_eq_value rfl, decode_of_eq_value rfl, decode_of_eq_value rfl, decode_of_eq_value rfl,
    decode_of_eq_value rfl, decode_of_eq_value rfl, decode_of_eq_value rfl, decode_of_eq_value rfl, fun hrow => ?_⟩
  rw [decode_eq_error_iff]
  rintro i rfl
  have hrange := toNat_encode_range i
  obtain hlow | hhigh | hzero28 := hrow
  · omega
  · omega
  · exact hzero28 (extractLsb'_encode_zero28 i)

/-- Settles O4: offset 8 names `CMD`, and the three outcomes are those of `writeCmd`. -/
theorem cmdWriteChecksThenDispatches : Obligations.CmdWriteChecksThenDispatches := by
  unfold Obligations.CmdWriteChecksThenDispatches
  intro v s
  rw [busWrite_cmd slotAt_cmd]
  refine ⟨fun hbusy => writeCmd_of_busy hbusy v,
    fun hidle hnone => writeCmd_of_reserved hidle (decode_eq_error_iff.mpr hnone), ?_⟩
  rintro i - rfl
  exact writeCmd_encode i s

end Sys2Proof.Machine
end

section
/-! PROOFS. The rotation (spec/40_primitives.md R110): for an amount below the word's width it is the library's
`BitVec.rotateLeft`, from which the place of each bit and the rotations of the two constant words follow. -/

namespace Sys2Proof.Machine

open Sys2Proof

theorem rotl_eq_rotateLeft (w : Word) {n : Nat} (hn : n < 32) : rotl w n = w.rotateLeft n :=
  (BitVec.rotateLeft_eq_rotateLeftAux_of_lt hn).symm

/-- A bit either stays within the word, moved up by `n`, or wraps to the bottom. -/
theorem getLsbD_rotl_add_mod (w : Word) {n b : Nat} (hn : n < 32) (hb : b < 32) :
    (rotl w n).getLsbD ((b + n) % 32) = w.getLsbD b := by
  rw [rotl_eq_rotateLeft w hn, BitVec.getLsbD_rotateLeft_of_le hn]
  by_cases hwrap : b + n < 32
  · have hpos : (b + n) % 32 = b + n := Nat.mod_eq_of_lt hwrap
    simp [hpos, hwrap]
  · have hpos : (b + n) % 32 = b + n - 32 := by omega
    have hbelow : b + n - 32 < n := by omega
    have hsource : 32 - n + (b + n - 32) = b := by omega
    simp [hpos, hbelow, hsource]

theorem rotl_zero (n : Nat) : rotl 0#32 n = 0#32 := by
  simp [rotl]

theorem rotl_allOnes {n : Nat} (hn : n < 32) : rotl (BitVec.allOnes 32) n = BitVec.allOnes 32 := by
  rw [rotl_eq_rotateLeft _ hn]
  ext i hi
  simp only [BitVec.getElem_rotateLeft, BitVec.getElem_allOnes, dite_eq_ite, ite_self]

/-- The mask of R110's formula keeps every bit of a 32-bit word. -/
theorem rotl_eq_masked (w : Word) (n : Nat) : rotl w n = ((w <<< n) ||| (w >>> (32 - n))) &&& 0xFFFFFFFF#32 :=
  BitVec.and_allOnes.symm

/-! ## The statement -/

/-- Settles O46: each clause of R110 is a lemma above, except the rotation of the top bit, which is one value. -/
theorem rotlMovesEveryBit : Obligations.RotlMovesEveryBit := by
  unfold Obligations.RotlMovesEveryBit
  intro w n _ hn
  have hlt : n < 32 := Nat.lt_succ_of_le hn
  exact ⟨fun b hb => getLsbD_rotl_add_mod w hlt hb, rotl_eq_masked w n, rotl_zero n, rotl_allOnes hlt, by decide⟩

end Sys2Proof.Machine
end

section
/-! PROOFS. The command `KEYEXP` and the 32 rounds it starts (spec/41_key_schedule.md R130 to R132): round `n` stores
word `n` of the schedule, so the closed form of the engine after `n` rounds holds the first `n` words of `KeyExpand`
over the round keys from before. -/

namespace Sys2Proof.Machine

open Sys2Proof

/-! ## What an idle engine does with a command word -/

theorem runCommand_of_accepted {check : Engine → Option Err} {e : Engine} (accept : Engine → Engine)
    (hidle : busy e = false) (hcheck : check e = none) : runCommand check accept e = accept e := by
  simp [runCommand, hidle, hcheck]

theorem runCommand_of_rejected {check : Engine → Option Err} {e : Engine} {x : Err} (accept : Engine → Engine)
    (hidle : busy e = false) (hcheck : check e = some x) : runCommand check accept e = raise x e := by
  simp [runCommand, hidle, hcheck]

theorem exec_keyexp_of_full {s : State} (hidle : busy s.engine = false) (hfull : s.engine.keyw = 0b1111#4) :
    exec .keyexp s = .next (s.withEngine (acceptKeyexp s.engine)) := by
  have hcheck : keyexpCheck s.engine = none := if_pos ((maskFull_iff _).mpr hfull)
  rw [exec, execKeyexp, runCommand_of_accepted acceptKeyexp hidle hcheck]

theorem exec_keyexp_of_not_full {s : State} (hidle : busy s.engine = false) (hmask : s.engine.keyw ≠ 0b1111#4) :
    exec .keyexp s = .next (s.withEngine (raise .eKeyLen s.engine)) := by
  have hcheck : keyexpCheck s.engine = some .eKeyLen := if_neg (mt (maskFull_iff _).mp hmask)
  rw [exec, execKeyexp, runCommand_of_rejected acceptKeyexp hidle hcheck]

/-! ## The round keys after some rounds -/

theorem getElem_keyExpandWords (mk : Quad) {i : Nat} (hi : i < 32) :
    (keyExpandWords mk)[i] = kexpWord (kexpWindow mk i) i := by
  simp [keyExpandWords]

/-- The round keys after `n` rounds on the master key `mk`, from the round keys `rk` (41 R131). -/
def roundKeysAfter (mk : Quad) (rk : Vector Word 32) (n : Nat) : Vector Word 32 :=
  Vector.ofFn fun i => if i.val < n then (keyExpandWords mk)[i] else rk[i]

theorem roundKeysAfter_zero (mk : Quad) (rk : Vector Word 32) : roundKeysAfter mk rk 0 = rk := by
  ext i hi : 1
  simp [roundKeysAfter]

theorem roundKeysAfter_all (mk : Quad) (rk : Vector Word 32) : roundKeysAfter mk rk 32 = keyExpandWords mk := by
  ext i hi : 1
  simp [roundKeysAfter]

/-- Round `n` stores word `n` of the schedule. -/
theorem roundKeysAfter_set (mk : Quad) (rk : Vector Word 32) {n : Nat} (hn : n < 32) :
    (roundKeysAfter mk rk n).set n (kexpWord (kexpWindow mk n) n) = roundKeysAfter mk rk (n + 1) := by
  rw [← getElem_keyExpandWords mk hn]
  ext i hi : 1
  rw [Vector.getElem_set]
  by_cases hin : n = i
  · subst hin
    simp [roundKeysAfter]
  · have hle : i ≤ n ↔ i < n := by omega
    simp [roundKeysAfter, hin, hle]

/-! ## The engine after some rounds -/

/-- The engine `n` rounds after `KEYEXP` was accepted in `e`, before the completing one (41 R130, R131). -/
def kexpAfter (e : Engine) (n : Fin 32) : Engine :=
  { acceptKeyexp e with
    rk := roundKeysAfter e.key e.rk n.val
    x := kexpWindow e.key n.val
    seq := ⟨.kexp, n, 0b00#2⟩ }

theorem kexpAfter_zero (e : Engine) : kexpAfter e 0 = acceptKeyexp e := by
  have hrk : roundKeysAfter e.key e.rk (0 : Fin 32).val = e.rk := roundKeysAfter_zero e.key e.rk
  rw [kexpAfter, hrk]
  rfl

theorem engineStep_kexpAfter (e : Engine) (n : Fin 32) : engineStep (kexpAfter e n) = kexpStep (kexpAfter e n) := rfl

theorem engineStep_kexpAfter_of_lt (e : Engine) {n : Nat} (hn : n + 1 < 32) :
    engineStep (kexpAfter e ⟨n, by omega⟩) = kexpAfter e ⟨n + 1, hn⟩ := by
  have hrnd : (kexpAfter e ⟨n, by omega⟩).seq.rnd.val < 31 := Nat.lt_of_succ_lt_succ hn
  rw [engineStep_kexpAfter, kexpStep_of_lt hrnd]
  simp [kexpAfter, kexpWindow, roundKeysAfter_set]

theorem engineStep_kexpAfter_last (e : Engine) :
    engineStep (kexpAfter e 31) =
      { acceptKeyexp e with
        rk := keyExpandWords e.key, x := quadZero, seq := seqIdle, keyValid := true, done := true } := by
  have hrk : (kexpAfter e 31).rk.set 31 (kexpWord (kexpAfter e 31).x 31) = keyExpandWords e.key :=
    (roundKeysAfter_set e.key e.rk (by decide)).trans (roundKeysAfter_all e.key e.rk)
  rw [engineStep_kexpAfter, kexpStep_of_last rfl, hrk]
  rfl

/-- The invariant of the run: the closed form holds at acceptance and every round before the last keeps it. -/
theorem engineSteps_acceptKeyexp (e : Engine) {n : Nat} (hn : n < 32) :
    engineSteps n (acceptKeyexp e) = kexpAfter e ⟨n, hn⟩ := by
  induction n with
  | zero => exact (kexpAfter_zero e).symm
  | succ n ih => rw [engineSteps_succ, ih (by omega), engineStep_kexpAfter_of_lt e hn]

theorem engineSteps_acceptKeyexp_all (e : Engine) :
    engineSteps 32 (acceptKeyexp e) =
      { acceptKeyexp e with
        rk := keyExpandWords e.key, x := quadZero, seq := seqIdle, keyValid := true, done := true } := by
  have h31 : engineSteps 31 (acceptKeyexp e) = kexpAfter e 31 := engineSteps_acceptKeyexp e (by decide)
  rw [engineSteps_succ, h31, engineStep_kexpAfter_last]

/-! ## The statement -/

/-- Settles O12: the three answers of `exec`, and between acceptance and the completing step the closed form
`kexpAfter`, whose last round completes the schedule. -/
theorem keyexpDerivesSchedule : Obligations.KeyexpDerivesSchedule := by
  unfold Obligations.KeyexpDerivesSchedule
  intro s
  refine ⟨exec_keyexp_of_full, fun n hn => ?_, ?_, exec_keyexp_of_not_full, exec_of_busy .keyexp⟩
  · have hrun := engineSteps_acceptKeyexp s.engine hn
    exact ⟨congrArg busy hrun, congrArg Engine.keyValid hrun, congrArg Engine.done hrun⟩
  · rw [keyExpand, words_bytes]
    exact engineSteps_acceptKeyexp_all s.engine

end Sys2Proof.Machine
end

section
/-! PROOFS. The block transform (spec/42_block_transform.md R141, R143): the two directions invert each other. One
round of the opposite direction, with the same subkey, undoes a round on the reversed window; so the opposite
direction walks the windows backwards. -/

namespace Sys2Proof.Machine

open Sys2Proof

/-! ## The subkeys from the other end -/

theorem subkey_encrypt (rk : Vector Word 32) (r : Fin 32) : subkey rk false r = rk[r.val] := rfl

theorem subkey_decrypt (rk : Vector Word 32) (r : Fin 32) : subkey rk true r = rk[31 - r.val] := rfl

/-- The opposite direction uses the subkey of round `r` in the round counted from the other end. -/
theorem subkey_not_rev (rk : Vector Word 32) (dir : Bool) (r : Fin 32) : subkey rk (!dir) r.rev = subkey rk dir r := by
  have hrev : r.rev.val = 31 - r.val := by rw [Fin.val_rev]; omega
  cases dir with
  | false =>
    have hback : 31 - (31 - r.val) = r.val := by omega
    simp only [Bool.not_false, subkey_decrypt, subkey_encrypt, hrev, hback]
  | true => simp only [Bool.not_true, subkey_decrypt, subkey_encrypt, hrev]

/-! ## One round -/

/-- Exclusive-or is commutative and self-inverse; of `T` nothing is used but that it is a function. -/
theorem roundF_quadReverse_quadShift (x : Quad) (k : Word) :
    roundF (quadReverse (quadShift x (roundF x k))) k = x.w0 := by
  have hcomm : x.w3 ^^^ x.w2 ^^^ x.w1 = x.w1 ^^^ x.w2 ^^^ x.w3 := by
    rw [BitVec.xor_comm x.w3, BitVec.xor_comm _ x.w1, BitVec.xor_assoc]
  simp only [roundF, quadReverse, quadShift, hcomm, BitVec.xor_assoc, BitVec.xor_self, BitVec.xor_zero]

theorem cryptRound_not_rev (rk : Vector Word 32) (dir : Bool) (x : Quad) (r : Fin 32) :
    cryptRound rk (!dir) (quadReverse (cryptRound rk dir x r)) r.rev = quadReverse x := by
  rw [cryptRound, cryptRound, subkey_not_rev, roundF_quadReverse_quadShift]
  rfl

/-! ## The 32 rounds -/

theorem cryptWindow_succ (rk : Vector Word 32) (dir : Bool) (b : Quad) (r : Fin 32) :
    cryptWindow rk dir b (r.val + 1) = cryptRound rk dir (cryptWindow rk dir b r.val) r :=
  dif_pos r.isLt

/-- The induction of R143: `Y[j] = X[35 - j]`, a window at a time. -/
theorem cryptWindow_not_cryptWords (rk : Vector Word 32) (dir : Bool) (b : Quad) {n : Nat} (hn : n ≤ 32) :
    cryptWindow rk (!dir) (cryptWords rk dir b) n = quadReverse (cryptWindow rk dir b (32 - n)) := by
  induction n with
  | zero => rfl
  | succ n ih =>
    obtain ⟨r, hr⟩ : ∃ r : Fin 32, 32 - n = r.val + 1 := ⟨⟨31 - n, by omega⟩, by simp only; omega⟩
    have hrev : r.rev.val = n := by rw [Fin.val_rev]; omega
    have hnext : 32 - (n + 1) = r.val := by omega
    calc cryptWindow rk (!dir) (cryptWords rk dir b) (n + 1)
        = cryptRound rk (!dir) (cryptWindow rk (!dir) (cryptWords rk dir b) n) r.rev := by
          rw [← hrev, cryptWindow_succ]
      _ = cryptRound rk (!dir) (quadReverse (cryptRound rk dir (cryptWindow rk dir b r.val) r)) r.rev := by
          rw [ih (by omega), hr, cryptWindow_succ]
      _ = quadReverse (cryptWindow rk dir b (32 - (n + 1))) := by
          rw [cryptRound_not_rev, hnext]

theorem cryptWords_not_cryptWords (rk : Vector Word 32) (dir : Bool) (b : Quad) :
    cryptWords rk (!dir) (cryptWords rk dir b) = b := by
  have hlast : cryptWindow rk (!dir) (cryptWords rk dir b) 32 = quadReverse b :=
    cryptWindow_not_cryptWords rk dir b le_rfl
  rw [cryptWords, hlast, quadReverse_quadReverse]

theorem crypt_not_crypt (rk : Vector Word 32) (dir : Bool) (b : Bytes16) : crypt rk (!dir) (crypt rk dir b) = b := by
  rw [crypt, crypt, words_bytes, cryptWords_not_cryptWords, bytes_words]

/-! ## The statement -/

/-- Settles O43: the two inversions are one lemma at the two directions. -/
theorem cryptDirectionsInvert : Obligations.CryptDirectionsInvert := by
  unfold Obligations.CryptDirectionsInvert
  exact fun rk b =>
    ⟨fun r => ⟨subkey_encrypt rk r, subkey_decrypt rk r⟩, crypt_not_crypt rk false b, crypt_not_crypt rk true b⟩

end Sys2Proof.Machine
end

section
/-! PROOFS. The mode controller's commands (spec/43_mode_commands.md R150 to R155): `IVLOAD`, and the four block
commands with the 32 rounds they start. The four share one acceptance and differ in `op`, the first window and
`CSAVE`, so the run of a block command is followed once, for every choice of the three. -/

namespace Sys2Proof.Machine

open Sys2Proof

/-! ## The answers of a command, from its check -/

/-- The meaning of `i` is the command shape of 30 R91 with this check and this acceptance. -/
def RunsCommand (i : Instr) (check : Engine → Option Err) (accept : Engine → Engine) : Prop :=
  ∀ s, exec i s = .next (s.withEngine (runCommand check accept s.engine))

theorem runsCommand_ivload : RunsCommand .ivload ivloadCheck acceptIvload := fun _ => rfl

theorem runsCommand_ecbEnc : RunsCommand .ecbEnc (blockCheck false) acceptEcbEnc := fun _ => rfl

theorem runsCommand_ecbDec : RunsCommand .ecbDec (blockCheck false) acceptEcbDec := fun _ => rfl

theorem runsCommand_cbcEnc : RunsCommand .cbcEnc (blockCheck true) acceptCbcEnc := fun _ => rfl

theorem runsCommand_cbcDec : RunsCommand .cbcDec (blockCheck true) acceptCbcDec := fun _ => rfl

theorem RunsCommand.exec_accepted {i : Instr} {check : Engine → Option Err} {accept : Engine → Engine} {s : State}
    (hi : RunsCommand i check accept) (hidle : busy s.engine = false) (hcheck : check s.engine = none) :
    exec i s = .next (s.withEngine (accept s.engine)) := by
  rw [hi, runCommand_of_accepted accept hidle hcheck]

theorem RunsCommand.exec_rejected {i : Instr} {check : Engine → Option Err} {accept : Engine → Engine} {s : State}
    {x : Err} (hi : RunsCommand i check accept) (hidle : busy s.engine = false) (hcheck : check s.engine = some x) :
    exec i s = .next (s.withEngine (raise x s.engine)) := by
  rw [hi, runCommand_of_rejected accept hidle hcheck]

/-! ## The checks -/

theorem ivloadCheck_of_full {e : Engine} (hfull : e.ivw = 0b1111#4) : ivloadCheck e = none :=
  if_pos ((maskFull_iff _).mpr hfull)

theorem ivloadCheck_of_not_full {e : Engine} (hmask : e.ivw ≠ 0b1111#4) : ivloadCheck e = some .eIvLen :=
  if_neg (mt (maskFull_iff _).mp hmask)

theorem blockCheck_noKey {e : Engine} (mode : Bool) (hkey : e.keyValid = false) :
    blockCheck mode e = some .eNoKey := by
  simp [blockCheck, hkey]

theorem blockCheck_noIv {e : Engine} (hkey : e.keyValid = true) (hiv : e.ivValid = false) :
    blockCheck true e = some .eNoIv := by
  simp [blockCheck, hkey, hiv]

theorem blockCheck_not_full {e : Engine} {mode : Bool} (hkey : e.keyValid = true)
    (hiv : mode = true → e.ivValid = true) (hdin : e.dinw ≠ 0b1111#4) : blockCheck mode e = some .eDLen := by
  cases mode with
  | false => simp [blockCheck, hkey, hdin]
  | true => simp [blockCheck, hkey, hiv rfl, hdin]

/-! ## The engine after some rounds -/

/-- `Crypt` on the words of a block. -/
theorem bytes_cryptWords (rk : Vector Word 32) (dir : Bool) (b : Quad) :
    bytes (cryptWords rk dir b) = crypt rk dir (bytes b) := by
  rw [crypt, words_bytes]

/-- The engine `n` rounds after a block command was accepted in `e` with the window `q` and `CSAVE = c`, before the
completing one (42 R142). -/
def cryptAfter (op : BitVec 2) (q c : Quad) (e : Engine) (n : Fin 32) : Engine :=
  { acceptBlock op q c e with x := cryptWindow e.rk (opDir op) q n.val, seq := ⟨.crypt, n, op⟩ }

/-- The engine in which a block command completes, `y` being the words of its `Crypt` (42 R142). -/
def cryptDone (op : BitVec 2) (q c : Quad) (e : Engine) (y : Quad) : Engine :=
  { acceptBlock op q c e with
    dout := (completeOutput (opMode op) (opDir op) y e.chain c).1
    chain := (completeOutput (opMode op) (opDir op) y e.chain c).2
    x := quadZero, csave := quadZero, seq := seqIdle, done := true }

section
variable (op : BitVec 2) (q c : Quad) (e : Engine)

theorem engineStep_cryptAfter (n : Fin 32) :
    engineStep (cryptAfter op q c e n) = cryptStep (cryptAfter op q c e n) := rfl

theorem engineStep_cryptAfter_of_lt {n : Nat} (hn : n + 1 < 32) :
    engineStep (cryptAfter op q c e ⟨n, by omega⟩) = cryptAfter op q c e ⟨n + 1, hn⟩ := by
  have hrnd : (cryptAfter op q c e ⟨n, by omega⟩).seq.rnd.val < 31 := Nat.lt_of_succ_lt_succ hn
  have hwindow := cryptWindow_succ e.rk (opDir op) q ⟨n, by omega⟩
  rw [engineStep_cryptAfter, cryptStep_of_lt hrnd]
  simp only [cryptAfter, hwindow]
  rfl

/-- The window's four words in the opposite order are the output of the 32nd round. -/
theorem engineStep_cryptAfter_last :
    engineStep (cryptAfter op q c e 31) = cryptDone op q c e (cryptWords e.rk (opDir op) q) := by
  have hwindow := cryptWindow_succ e.rk (opDir op) q 31
  have hwords : cryptWords e.rk (opDir op) q =
      quadReverse (cryptRound e.rk (opDir op) (cryptWindow e.rk (opDir op) q 31) 31) :=
    congrArg quadReverse hwindow
  rw [engineStep_cryptAfter, cryptStep_of_last rfl, hwords]
  rfl

/-- The invariant of the run: the closed form holds at acceptance and every round before the last keeps it. -/
theorem engineSteps_acceptBlock {n : Nat} (hn : n < 32) :
    engineSteps n (acceptBlock op q c e) = cryptAfter op q c e ⟨n, hn⟩ := by
  induction n with
  | zero => rfl
  | succ n ih => rw [engineSteps_succ, ih (by omega), engineStep_cryptAfter_of_lt op q c e hn]

theorem engineSteps_acceptBlock_all :
    engineSteps 32 (acceptBlock op q c e) = cryptDone op q c e (cryptWords e.rk (opDir op) q) := by
  have h31 : engineSteps 31 (acceptBlock op q c e) = cryptAfter op q c e 31 :=
    engineSteps_acceptBlock op q c e (by decide)
  rw [engineSteps_succ, h31, engineStep_cryptAfter_last]

/-- What the rounds before the last leave alone. -/
theorem engineSteps_acceptBlock_frame {n : Nat} (hn : n < 32) :
    busy (engineSteps n (acceptBlock op q c e)) = true ∧
    (engineSteps n (acceptBlock op q c e)).dout = e.dout ∧
    (engineSteps n (acceptBlock op q c e)).chain = e.chain ∧
    (engineSteps n (acceptBlock op q c e)).csave = c := by
  rw [engineSteps_acceptBlock op q c e hn]
  exact ⟨rfl, rfl, rfl, rfl⟩

end

/-! ## The statements -/

/-- Settles O11: the two outcomes of `IVLOAD`'s check, and the common check. -/
theorem ivloadLoadsChain : Obligations.IvloadLoadsChain := by
  unfold Obligations.IvloadLoadsChain
  intro s
  exact ⟨fun hidle hfull => runsCommand_ivload.exec_accepted hidle (ivloadCheck_of_full hfull),
    fun hidle hmask => runsCommand_ivload.exec_rejected hidle (ivloadCheck_of_not_full hmask),
    exec_of_busy .ivload⟩

/-- Settles O13: the run of a block command with `op` 00 on the window `DIN`, completing with `Crypt` in `DOUT`. -/
theorem ecbEncEncryptsBlock : Obligations.EcbEncEncryptsBlock := by
  unfold Obligations.EcbEncEncryptsBlock
  intro s
  refine ⟨fun hidle hkey hdin =>
      runsCommand_ecbEnc.exec_accepted hidle ((blockCheck_eq_none_iff ..).mpr ⟨hkey, nofun, hdin⟩),
    fun n hn => ?_,
    ⟨cryptWords s.engine.rk false s.engine.din, bytes_cryptWords .., engineSteps_acceptBlock_all 0b00#2 ..⟩,
    fun hidle hkey => runsCommand_ecbEnc.exec_rejected hidle (blockCheck_noKey false hkey),
    fun hidle hkey hdin => runsCommand_ecbEnc.exec_rejected hidle (blockCheck_not_full hkey nofun hdin),
    exec_of_busy .ecbEnc⟩
  obtain ⟨hbusy, hdout, -, -⟩ := engineSteps_acceptBlock_frame 0b00#2 s.engine.din s.engine.csave s.engine hn
  exact ⟨hbusy, hdout⟩

/-- Settles O14: as `ECB.ENC` with `op` 01, whose low bit reverses the subkeys. -/
theorem ecbDecDecryptsBlock : Obligations.EcbDecDecryptsBlock := by
  unfold Obligations.EcbDecDecryptsBlock
  intro s
  refine ⟨fun hidle hkey hdin =>
      runsCommand_ecbDec.exec_accepted hidle ((blockCheck_eq_none_iff ..).mpr ⟨hkey, nofun, hdin⟩),
    fun n hn => ?_,
    ⟨cryptWords s.engine.rk true s.engine.din, bytes_cryptWords .., engineSteps_acceptBlock_all 0b01#2 ..⟩,
    fun hidle hkey => runsCommand_ecbDec.exec_rejected hidle (blockCheck_noKey false hkey),
    fun hidle hkey hdin => runsCommand_ecbDec.exec_rejected hidle (blockCheck_not_full hkey nofun hdin),
    exec_of_busy .ecbDec⟩
  obtain ⟨hbusy, hdout, -, -⟩ := engineSteps_acceptBlock_frame 0b01#2 s.engine.din s.engine.csave s.engine hn
  exact ⟨hbusy, hdout⟩

/-- Settles O15: the run with `op` 10 on the window `DIN ^ CHAIN`, whose output goes to `DOUT` and to `CHAIN`. -/
theorem cbcEncChainsCiphertext : Obligations.CbcEncChainsCiphertext := by
  unfold Obligations.CbcEncChainsCiphertext
  intro s
  refine ⟨fun hidle hkey hiv hdin =>
      runsCommand_cbcEnc.exec_accepted hidle ((blockCheck_eq_none_iff ..).mpr ⟨hkey, fun _ => hiv, hdin⟩),
    fun n hn => ?_,
    ⟨cryptWords s.engine.rk false (quadXor s.engine.din s.engine.chain), bytes_cryptWords ..,
      engineSteps_acceptBlock_all 0b10#2 ..⟩,
    fun hidle hkey => runsCommand_cbcEnc.exec_rejected hidle (blockCheck_noKey true hkey),
    fun hidle hkey hiv => runsCommand_cbcEnc.exec_rejected hidle (blockCheck_noIv hkey hiv),
    fun hidle hkey hiv hdin => runsCommand_cbcEnc.exec_rejected hidle (blockCheck_not_full hkey (fun _ => hiv) hdin),
    exec_of_busy .cbcEnc⟩
  obtain ⟨hbusy, hdout, hchain, -⟩ := engineSteps_acceptBlock_frame 0b10#2
    (quadXor s.engine.din s.engine.chain) s.engine.csave s.engine hn
  exact ⟨hbusy, hdout, hchain⟩

/-- Settles O16: the run with `op` 11, which keeps `DIN` in `CSAVE` until the completing step moves it to `CHAIN`. -/
theorem cbcDecChainsCiphertext : Obligations.CbcDecChainsCiphertext := by
  unfold Obligations.CbcDecChainsCiphertext
  intro s
  exact ⟨fun hidle hkey hiv hdin =>
      runsCommand_cbcDec.exec_accepted hidle ((blockCheck_eq_none_iff ..).mpr ⟨hkey, fun _ => hiv, hdin⟩),
    fun n hn => engineSteps_acceptBlock_frame 0b11#2 s.engine.din s.engine.din s.engine hn,
    ⟨cryptWords s.engine.rk true s.engine.din, bytes_cryptWords .., engineSteps_acceptBlock_all 0b11#2 ..⟩,
    fun hidle hkey => runsCommand_cbcDec.exec_rejected hidle (blockCheck_noKey true hkey),
    fun hidle hkey hiv => runsCommand_cbcDec.exec_rejected hidle (blockCheck_noIv hkey hiv),
    fun hidle hkey hiv hdin => runsCommand_cbcDec.exec_rejected hidle (blockCheck_not_full hkey (fun _ => hiv) hdin),
    exec_of_busy .cbcDec⟩

end Sys2Proof.Machine
end

section
/-! PROOFS. The control commands `NOP` and `ZERO` (spec/44_control_commands.md R170, R171). Neither has a check of
its own, so an idle engine always accepts them. -/

namespace Sys2Proof.Machine

open Sys2Proof

theorem runsCommand_nop : RunsCommand .nop noCheck acceptNop := fun _ => rfl

/-- `NOP` accepted (44 R170): the engine it puts back is the one it found. -/
theorem exec_nop_of_idle {s : State} (hidle : busy s.engine = false) : exec .nop s = .next s := by
  rw [runsCommand_nop.exec_accepted hidle rfl, acceptNop, State.withEngine_self]

/-! ## The statements -/

/-- Settles O9: the acceptance of `NOP`, and the common check. -/
theorem nopDoesNothing : Obligations.NopDoesNothing := by
  unfold Obligations.NopDoesNothing
  intro s
  exact ⟨exec_nop_of_idle, exec_of_busy .nop⟩

/-- Settles O10: the acceptance of `ZERO`, and the common check. -/
theorem zeroRestoresReset : Obligations.ZeroRestoresReset := by
  unfold Obligations.ZeroRestoresReset
  intro s
  exact ⟨exec_zero_of_idle, exec_of_busy .zero⟩

end Sys2Proof.Machine
end

section
/-! PROOFS. The padding (spec/45_host_layer.md R180, R181): the bounds on its length, and that the padded length is a
whole number of blocks. -/

namespace Sys2Proof.Machine

open Sys2Proof

theorem padLength_eq (m : Bytes) : padLength m = 16 - m.length % 16 := rfl

theorem padLength_pos (m : Bytes) : 1 ≤ padLength m := by
  rw [padLength_eq]
  omega

theorem padLength_le (m : Bytes) : padLength m ≤ 16 := by
  rw [padLength_eq]
  omega

/-- No skip when aligned (45 R181). -/
theorem padLength_of_aligned {m : Bytes} (h : m.length % 16 = 0) : padLength m = 16 := by
  rw [padLength_eq, h]

@[simp] theorem length_pad (m : Bytes) : (pad m).length = m.length + padLength m := by
  simp [pad]

/-- The padded length counts whole blocks: those `m` fills, and the one its padding completes. -/
theorem length_pad_eq_blocks (m : Bytes) : (pad m).length = 16 * (m.length / 16 + 1) := by
  rw [length_pad, padLength_eq]
  omega

theorem pad_of_aligned {m : Bytes} (h : m.length % 16 = 0) : pad m = m ++ List.replicate 16 0x10#8 := by
  rw [pad, padLength_of_aligned h]

/-! ## The statement -/

/-- Settles O53: `p` is `padLength m`, and the padded length is a positive number of whole blocks. -/
theorem padAppendsOneToSixteen : Obligations.PadAppendsOneToSixteen := by
  unfold Obligations.PadAppendsOneToSixteen
  intro m
  have hblocks := length_pad_eq_blocks m
  exact ⟨padLength m, padLength_eq m, padLength_pos m, padLength_le m, rfl, length_pad m,
    by omega, by omega, pad_of_aligned⟩

end Sys2Proof.Machine
end

section
/-! PROOFS. The rejections of a command (spec/60_exceptions.md R222 to R225): what `raise` changes in `STATUS` and in
`irq`, the flag that one write to `CMD` raises, and the commands that make the engine busy. All eight commands have
the shape of 30 R91, each with its own check and its own acceptance, so a write to `CMD` is described once for all of
them. -/

namespace Sys2Proof.Machine

open Sys2Proof

/-! ## The codes of the error flags (60 R221) -/

theorem Err.code_range (x : Err) : 8 ≤ x.code ∧ x.code < 15 := by
  cases x <;> decide

theorem Err.exists_code_eq {b : Nat} (hlow : 8 ≤ b) (hhigh : b < 15) : ∃ x : Err, x.code = b := by
  obtain ⟨x, hx⟩ := Err.exists_code_sub_eq (k := b - 8) (by omega)
  have := x.code_range
  exact ⟨x, by omega⟩

theorem Err.code_inj {x y : Err} : x.code = y.code ↔ x = y := by
  cases x <;> cases y <;> decide

/-! ## What `raise` changes (60 R222) -/

theorem ErrFlags.get_set_same (f : ErrFlags) (x : Err) : (f.set x).get x = true := by
  simp [ErrFlags.get_set]

theorem ErrFlags.any_set (f : ErrFlags) (x : Err) : (f.set x).any = true :=
  (ErrFlags.any_iff _).mpr ⟨x, f.get_set_same x⟩

theorem irq_raise (x : Err) (e : Engine) : irq (raise x e) = (irq e || e.ctrl.eie) := by
  cases heie : e.ctrl.eie <;> simp [irq, heie, ErrFlags.any_set]

theorem getLsbD_statusWord_code (e : Engine) (x : Err) : (statusWord e).getLsbD x.code = e.err.get x := by
  rw [← ErrFlags.getLsbD_bits, getLsbD_statusWord]
  cases x <;> rfl

/-- Outside bits 14:8 `STATUS` does not show the error flags. -/
theorem getLsbD_statusWord_raise_other (x : Err) (e : Engine) {b : Nat} (hb : ¬(8 ≤ b ∧ b < 15)) :
    (statusWord (raise x e)).getLsbD b = (statusWord e).getLsbD b := by
  rw [getLsbD_statusWord, getLsbD_statusWord]
  by_cases hlow : b < 8
  · simp [hlow]
  · have hhigh : ¬b < 15 := by omega
    simp [hlow, hhigh]

theorem getLsbD_statusWord_raise (x : Err) (e : Engine) (b : Nat) :
    (statusWord (raise x e)).getLsbD b = (decide (b = x.code) || (statusWord e).getLsbD b) := by
  by_cases hb : 8 ≤ b ∧ b < 15
  · obtain ⟨y, rfl⟩ := Err.exists_code_eq hb.1 hb.2
    simp only [getLsbD_statusWord_code, raise_err, ErrFlags.get_set, Err.code_inj]
  · have hne : b ≠ x.code := fun h => hb (h ▸ x.code_range)
    simp [getLsbD_statusWord_raise_other x e hb, hne]

/-! ## The check and the acceptance of each command -/

/-- The check of a command's own rule. -/
def commandCheck : Instr → Engine → Option Err
  | .nop | .zero => noCheck
  | .keyexp => keyexpCheck
  | .ivload => ivloadCheck
  | .ecbEnc | .ecbDec => blockCheck false
  | .cbcEnc | .cbcDec => blockCheck true

/-- The acceptance effects of a command's own rule. -/
def commandAccept : Instr → Engine → Engine
  | .nop => acceptNop
  | .keyexp => acceptKeyexp
  | .ivload => acceptIvload
  | .zero => acceptZero
  | .ecbEnc => acceptEcbEnc
  | .ecbDec => acceptEcbDec
  | .cbcEnc => acceptCbcEnc
  | .cbcDec => acceptCbcDec

theorem runsCommand_of_instr : (i : Instr) → RunsCommand i (commandCheck i) (commandAccept i)
  | .nop => runsCommand_nop
  | .keyexp => fun _ => rfl
  | .ivload => runsCommand_ivload
  | .zero => fun _ => rfl
  | .ecbEnc => runsCommand_ecbEnc
  | .ecbDec => runsCommand_ecbDec
  | .cbcEnc => runsCommand_cbcEnc
  | .cbcDec => runsCommand_cbcDec

/-- Only `ZERO` touches the error flags when it is accepted. -/
theorem commandAccept_err {i : Instr} (hzero : i ≠ .zero) (e : Engine) : (commandAccept i e).err = e.err := by
  cases i with
  | zero => exact absurd rfl hzero
  | _ => rfl

/-- The commands that start the sequencer when they are accepted. -/
theorem encode_mem_of_busy_commandAccept {i : Instr} {e : Engine} (hidle : busy e = false)
    (hbusy : busy (commandAccept i e) = true) : encode i ∈ [0x1#32, 0x8#32, 0x9#32, 0xA#32, 0xB#32] := by
  cases i with
  | nop => exact absurd (hidle.symm.trans hbusy) Bool.false_ne_true
  | ivload => exact absurd (hidle.symm.trans hbusy) Bool.false_ne_true
  | zero => exact absurd hbusy Bool.false_ne_true
  | _ => decide

/-! ## The flag that a write to `CMD` raises -/

/-- The first failing check of 30 R91 for the word `v`. -/
def firstRejection (v : Word) (e : Engine) : Option Err :=
  if busy e then some .eBusy
  else
    match decode v with
    | .error _ => some .eOp
    | .ok i => commandCheck i e

theorem firstRejection_of_busy (v : Word) {e : Engine} (hbusy : busy e = true) :
    firstRejection v e = some .eBusy := by
  simp [firstRejection, hbusy]

theorem firstRejection_of_reserved {v : Word} {e : Engine} (hidle : busy e = false)
    (hres : decode v = .error .reservedEncoding) : firstRejection v e = some .eOp := by
  simp [firstRejection, hidle, hres]

theorem firstRejection_encode (i : Instr) {e : Engine} (hidle : busy e = false) :
    firstRejection (encode i) e = commandCheck i e := by
  simp [firstRejection, hidle]

/-- The three ways of 30 R91: busy, or idle with a reserved word, or idle with a command's word. -/
theorem cmdWord_cases (v : Word) (e : Engine) :
    busy e = true ∨ (busy e = false ∧ decode v = .error .reservedEncoding) ∨
      (busy e = false ∧ ∃ i, v = encode i) := by
  cases hb : busy e with
  | true => exact .inl rfl
  | false =>
    cases hd : decode v with
    | error r => cases r; exact .inr (.inl ⟨rfl, rfl⟩)
    | ok i => exact .inr (.inr ⟨rfl, i, decode_eq_ok_iff.mp hd⟩)

/-- Everything a write to `CMD` can do: it raises the first failing check's flag, or every check passes and it is an
idle engine that accepts the word's command. -/
theorem busWrite_cmd_cases (v : Word) (s : State) :
    (∃ x, firstRejection v s.engine = some x ∧ busWrite 0x08 4 v s = .next (s.withEngine (raise x s.engine))) ∨
    (∃ i, busy s.engine = false ∧ v = encode i ∧ firstRejection v s.engine = none ∧
      busWrite 0x08 4 v s = .next (s.withEngine (commandAccept i s.engine))) := by
  rw [busWrite_cmd slotAt_cmd]
  obtain hbusy | ⟨hidle, hres⟩ | ⟨hidle, i, rfl⟩ := cmdWord_cases v s.engine
  · exact .inl ⟨_, firstRejection_of_busy v hbusy, writeCmd_of_busy hbusy v⟩
  · exact .inl ⟨_, firstRejection_of_reserved hidle hres, writeCmd_of_reserved hidle hres⟩
  · rw [writeCmd_encode, firstRejection_encode i hidle]
    cases hcheck : commandCheck i s.engine with
    | some x => exact .inl ⟨x, rfl, (runsCommand_of_instr i).exec_rejected hidle hcheck⟩
    | none => exact .inr ⟨i, hidle, rfl, rfl, (runsCommand_of_instr i).exec_accepted hidle hcheck⟩

/-! ## The priority order (60 R223) -/

theorem mem_commandWords_iff (v : Word) :
    v ∈ [0x0#32, 0x1#32, 0x2#32, 0x3#32, 0x8#32, 0x9#32, 0xA#32, 0xB#32] ↔ ∃ i, v = encode i := by
  constructor
  · intro hmem
    fin_cases hmem
    exacts [⟨.nop, rfl⟩, ⟨.keyexp, rfl⟩, ⟨.ivload, rfl⟩, ⟨.zero, rfl⟩, ⟨.ecbEnc, rfl⟩, ⟨.ecbDec, rfl⟩,
      ⟨.cbcEnc, rfl⟩, ⟨.cbcDec, rfl⟩]
  · rintro ⟨i, rfl⟩
    cases i <;> decide

theorem keyexpCheck_eq (e : Engine) : keyexpCheck e = if e.keyw ≠ 0b1111#4 then some .eKeyLen else none := by
  simp [keyexpCheck]

theorem ivloadCheck_eq (e : Engine) : ivloadCheck e = if e.ivw ≠ 0b1111#4 then some .eIvLen else none := by
  simp [ivloadCheck]

theorem blockCheck_eq (mode : Bool) (e : Engine) :
    blockCheck mode e =
      if e.keyValid = false then some .eNoKey
      else if mode = true ∧ e.ivValid = false then some .eNoIv
      else if e.dinw ≠ 0b1111#4 then some .eDLen
      else none := by
  simp [blockCheck, maskFull]

/-- The order of 60 R223 with the eight command words written out: the commands' own checks are told apart by the
value of the word. -/
theorem firstRejection_eq (v : Word) (e : Engine) :
    firstRejection v e =
      if busy e then some .eBusy
      else if v ∉ [0x0#32, 0x1#32, 0x2#32, 0x3#32, 0x8#32, 0x9#32, 0xA#32, 0xB#32] then some .eOp
      else if v = 0x1#32 ∧ e.keyw ≠ 0b1111#4 then some .eKeyLen
      else if v = 0x2#32 ∧ e.ivw ≠ 0b1111#4 then some .eIvLen
      else if 8 ≤ v.toNat ∧ e.keyValid = false then some .eNoKey
      else if 10 ≤ v.toNat ∧ e.ivValid = false then some .eNoIv
      else if 8 ≤ v.toNat ∧ e.dinw ≠ 0b1111#4 then some .eDLen
      else none := by
  obtain hbusy | ⟨hidle, hres⟩ | ⟨hidle, i, rfl⟩ := cmdWord_cases v e
  · rw [firstRejection_of_busy v hbusy, if_pos hbusy]
  · have hmem := mt (mem_commandWords_iff v).mp (not_exists.mpr (decode_eq_error_iff.mp hres))
    rw [firstRejection_of_reserved hidle hres, if_neg (Bool.eq_false_iff.mp hidle), if_pos hmem]
  · have hmem := (mem_commandWords_iff (encode i)).mpr ⟨i, rfl⟩
    rw [firstRejection_encode i hidle, if_neg (Bool.eq_false_iff.mp hidle), if_neg (not_not_intro hmem)]
    cases i with
    | nop | zero => simp [commandCheck, noCheck, encode, opField]
    | keyexp => simp [commandCheck, keyexpCheck_eq, encode, opField]
    | ivload => simp [commandCheck, ivloadCheck_eq, encode, opField]
    | ecbEnc | ecbDec | cbcEnc | cbcDec => simp [commandCheck, blockCheck_eq, encode, opField, blockOp]

/-! ## The statements -/

/-- Settles O5: the statement's chain of conditions is the first failing check. -/
theorem oneFlagInPriorityOrder : Obligations.OneFlagInPriorityOrder := by
  unfold Obligations.OneFlagInPriorityOrder
  intro v s e first
  have hfirst : first = firstRejection v e := (firstRejection_eq v e).symm
  rw [hfirst]
  obtain ⟨x, hx, hwrite⟩ | ⟨i, -, rfl, hnone, hwrite⟩ := busWrite_cmd_cases v s
  · refine ⟨raise x e, hwrite, fun y hy => ?_, fun hnone => ?_⟩
    · rw [Option.some.inj (hx.symm.trans hy)]
    · exact absurd (hx.symm.trans hnone) (Option.some_ne_none x)
  · refine ⟨commandAccept i e, hwrite, fun y hy => ?_, fun _ hzero => ?_⟩
    · exact absurd (hy.symm.trans hnone) (Option.some_ne_none y)
    · exact commandAccept_err (fun hi => hzero (congrArg encode hi)) e

/-- Settles O6: the flag's bit of `STATUS` and the level of `irq` are read off the flags after `raise`. -/
theorem rejectionSetsOnlyItsFlag : Obligations.RejectionSetsOnlyItsFlag := by
  unfold Obligations.RejectionSetsOnlyItsFlag
  intro x e
  exact ⟨e.err.get_set_same x, rfl, fun b _ => getLsbD_statusWord_raise x e b, irq_raise x e⟩

/-- Settles O7: of the ways a write to an idle engine goes, only an acceptance that starts the sequencer leaves it
busy. -/
theorem busyDropsEveryCommand : Obligations.BusyDropsEveryCommand := by
  unfold Obligations.BusyDropsEveryCommand
  refine ⟨fun v s hbusy => (busWrite_cmd slotAt_cmd v s).trans (writeCmd_of_busy hbusy v), ?_⟩
  intro v s s' hidle hnext hbusy
  obtain ⟨x, -, hwrite⟩ | ⟨i, -, rfl, -, hwrite⟩ := busWrite_cmd_cases v s
  · obtain rfl := Host.Outcome.next.inj (hnext.symm.trans hwrite)
    rw [State.withEngine_engine, busy_raise] at hbusy
    exact absurd (hidle.symm.trans hbusy) Bool.false_ne_true
  · obtain rfl := Host.Outcome.next.inj (hnext.symm.trans hwrite)
    exact encode_mem_of_busy_commandAccept hidle hbusy

/-- Settles O8: the three rows are the reserved ones of the opcode map. -/
theorem reservedWordRaisesEOp : Obligations.ReservedWordRaisesEOp := by
  unfold Obligations.ReservedWordRaisesEOp
  intro v s hidle hrow
  obtain ⟨-, -, -, -, -, -, -, -, hreserved⟩ := decodeFollowsOpcodeMap v
  exact (busWrite_cmd slotAt_cmd v s).trans (writeCmd_of_reserved hidle (hreserved hrow))

end Sys2Proof.Machine
end

section
/-! PROOFS. What one bus event and one step of the machine can make of the engine (spec/20_memory.md R65, R72;
spec/30_encoding.md R91; spec/70_reset_and_hazards.md R260), said once: every rule about whole steps is read off
these two lists of cases. Of the host's actions only reset and an accepted command touch the datapath. -/

namespace Sys2Proof.Machine

open Sys2Proof

/-! ## The offsets of the slots that rules name -/

theorem slotNumbered_eq_cmd_iff (n : Nat) : slotNumbered n = .cmd ↔ n = 2 := by
  unfold slotNumbered
  split <;> simp_all

theorem slotNumbered_eq_status_iff (n : Nat) : slotNumbered n = .status ↔ n = 1 := by
  unfold slotNumbered
  split <;> simp_all

/-- An access that exists is 4 bytes wide. -/
theorem bytes_of_slotAt {off bytes : Nat} {slot : Slot} (h : slotAt off bytes = .ok slot) : bytes = 4 :=
  ((slotAt_ok_iff ..).mp h).1

theorem off_of_slotAt_cmd {off bytes : Nat} (h : slotAt off bytes = .ok .cmd) : off = 0x08 := by
  obtain ⟨-, halign, -, hslot⟩ := (slotAt_ok_iff ..).mp h
  have hnumber := (slotNumbered_eq_cmd_iff _).mp hslot.symm
  omega

theorem off_of_slotAt_status {off bytes : Nat} (h : slotAt off bytes = .ok .status) : off = 0x04 := by
  obtain ⟨-, halign, -, hslot⟩ := (slotAt_ok_iff ..).mp h
  have hnumber := (slotNumbered_eq_status_iff _).mp hslot.symm
  omega

/-! ## The cases -/

/-- What the bus event `ev` makes of the engine `e`. -/
inductive EventEffect (e : Engine) : BusEvent → Engine → Prop where
  /-- reads, the poll of `wait` and an observation of `irq` -/
  | unchanged {ev : BusEvent} (hwrite : ∀ off bytes v, ev ≠ .write off bytes v) (hreset : ev ≠ .reset) :
      EventEffect e ev e
  | reset : EventEffect e .reset Engine.reset
  | slotWritten {off : Nat} {slot : Slot} (v : Word) (hslot : slotAt off 4 = .ok slot) (hcmd : slot ≠ .cmd) :
      EventEffect e (.write off 4 v) (writeSlot e slot v)
  | rejected (v : Word) (x : Err) (hfirst : firstRejection v e = some x) :
      EventEffect e (.write 0x08 4 v) (raise x e)
  | accepted (i : Instr) (hidle : busy e = false) (hcheck : commandCheck i e = none) :
      EventEffect e (.write 0x08 4 (encode i)) (commandAccept i e)

/-- What one step of the machine `s` makes of its engine. -/
inductive StepEffect (s : State) : Engine → Prop where
  | quiet (hidle : busy s.engine = false) (hpending : s.pending = []) : StepEffect s s.engine
  | engineStep (hbusy : busy s.engine = true) : StepEffect s (engineStep s.engine)
  | event {ev : BusEvent} {rest : List BusEvent} {e' : Engine} (hpending : s.pending = ev :: rest)
      (heffect : EventEffect s.engine ev e') : StepEffect s e'

theorem eventEffect_of_busWrite {off bytes : Nat} {v : Word} {s s' : State} (h : busWrite off bytes v s = .next s') :
    EventEffect s.engine (.write off bytes v) s'.engine := by
  obtain ⟨r, -, hwrite⟩ | ⟨hslot, -⟩ | ⟨slot, hcmd, hslot, hwrite⟩ := busWrite_cases off bytes v s
  · exact nomatch hwrite.symm.trans h
  · obtain rfl := bytes_of_slotAt hslot
    obtain rfl := off_of_slotAt_cmd hslot
    obtain ⟨x, hfirst, hwrite⟩ | ⟨i, hidle, rfl, hnone, hwrite⟩ := busWrite_cmd_cases v s
    · obtain rfl := Host.Outcome.next.inj (hwrite.symm.trans h)
      exact .rejected v x hfirst
    · obtain rfl := Host.Outcome.next.inj (hwrite.symm.trans h)
      exact .accepted i hidle ((firstRejection_encode i hidle).symm.trans hnone)
  · obtain rfl := bytes_of_slotAt hslot
    obtain rfl := Host.Outcome.next.inj (hwrite.symm.trans h)
    exact .slotWritten v hslot hcmd

theorem engine_of_busRead {off bytes : Nat} {s s' : State} (h : busRead off bytes s = .next s') :
    s'.engine = s.engine := by
  unfold busRead at h
  split at h
  · cases h
  · cases h; rfl

theorem engine_of_busPoll {s s' : State} (h : busPoll s = .next s') : s'.engine = s.engine := by
  unfold busPoll at h
  split at h <;> cases h <;> rfl

theorem eventEffect_of_performEvent {ev : BusEvent} {s s' : State} (h : performEvent ev s = .next s') :
    EventEffect s.engine ev s'.engine := by
  cases ev with
  | read off bytes =>
    rw [engine_of_busRead h]
    exact .unchanged nofun nofun
  | write off bytes v => exact eventEffect_of_busWrite h
  | poll =>
    rw [engine_of_busPoll h]
    exact .unchanged nofun nofun
  | observeIrq =>
    cases h
    exact .unchanged nofun nofun
  | reset =>
    cases h
    exact .reset

theorem stepEffect_of_step {s s' : State} (h : step s = .next s') : StepEffect s s'.engine := by
  obtain ⟨hpending, hidle, hstep⟩ | ⟨hbusy, -, hstep⟩ | ⟨ev, rest, hpending, -, hstep⟩ := step_cases s
  · obtain rfl := Host.Outcome.next.inj (hstep.symm.trans h)
    exact .quiet hidle hpending
  · obtain rfl := Host.Outcome.next.inj (hstep.symm.trans h)
    exact .engineStep hbusy
  · exact .event hpending (eventEffect_of_performEvent (s := takeEvent s rest) (hstep.symm.trans h))

/-! ## What leaves the datapath alone -/

theorem sameDatapath_refl (e : Engine) : sameDatapath e e := ⟨rfl, rfl, rfl, rfl, rfl, rfl, rfl, rfl⟩

theorem sameDatapath_raise (x : Err) (e : Engine) : sameDatapath e (raise x e) :=
  ⟨rfl, rfl, rfl, rfl, rfl, rfl, rfl, rfl⟩

/-- No register a host writes holds anything of the datapath (20 R72). -/
theorem sameDatapath_writeSlot (e : Engine) (slot : Slot) (v : Word) : sameDatapath e (writeSlot e slot v) := by
  cases slot <;> exact ⟨rfl, rfl, rfl, rfl, rfl, rfl, rfl, rfl⟩

end Sys2Proof.Machine
end

section
/-! PROOFS. The state invariants (spec/10_state.md R41): each case of a step keeps them. -/

namespace Sys2Proof.Machine

open Sys2Proof

/-- `stateInv` speaks of the engine only. -/
def engineInv (e : Engine) : Prop := seqInv e ∧ scheduleInv e

theorem stateInv_iff (s : State) : stateInv s ↔ engineInv s.engine := Iff.rfl

theorem Seq.eq_seqIdle {q : Seq} (hphase : q.phase = .idle) (hrnd : q.rnd = 0) (hop : q.op = 0b00#2) :
    q = seqIdle := by
  cases q
  subst hphase hrnd hop
  rfl

/-- An idle engine with the hidden registers cleared: what is left to show is R41 (e). -/
theorem engineInv_of_idle {e : Engine} (hseq : e.seq = seqIdle) (hx : e.x = quadZero) (hcsave : e.csave = quadZero)
    (hrk : e.keyValid = true → ∃ mk, e.rk = keyExpandWords mk) : engineInv e := by
  have hphase : e.seq.phase = .idle := congrArg Seq.phase hseq
  refine ⟨⟨fun _ => ?_, fun h => ?_, fun h => ?_, fun h => absurd hcsave h⟩, fun _ => hrk, fun h => ?_⟩
  · rw [hseq]
    exact ⟨rfl, rfl, hx, hcsave⟩
  all_goals simp [hphase] at h

theorem engineInv_reset : engineInv Engine.reset := engineInv_of_idle rfl rfl rfl nofun

/-- The invariants read nothing but the datapath and that a running command has `DONE` clear. -/
theorem engineInv_of_sameDatapath {e e' : Engine} (hsame : sameDatapath e e') (hdone : e.done = false → e'.done = false)
    (h : engineInv e) : engineInv e' := by
  obtain ⟨hseq, hx, hcsave, hrk, -, -, hkey, hiv⟩ := hsame
  obtain ⟨⟨hidle, hkexp, hcrypt, hsave⟩, hsched⟩ := h
  rw [hseq, hx, hcsave] at hidle
  rw [hseq, hkey] at hkexp
  rw [hseq, hkey, hiv] at hcrypt
  rw [hseq, hcsave] at hsave
  refine ⟨⟨hidle, fun hp => ?_, fun hp => ?_, hsave⟩, ?_⟩
  · obtain ⟨hop, hnokey, hnotdone⟩ := hkexp hp
    exact ⟨hop, hnokey, hdone hnotdone⟩
  · obtain ⟨hkeyed, hnotdone, hchained⟩ := hcrypt hp
    exact ⟨hkeyed, hdone hnotdone, hchained⟩
  · unfold scheduleInv at hsched ⊢
    rwa [hseq, hx, hrk, hkey] at hsched

theorem done_writeSlot_of_not_done {e : Engine} (slot : Slot) (v : Word) (h : e.done = false) :
    (writeSlot e slot v).done = false := by
  cases slot <;> simp [writeSlot, h]

/-! ## The engine step -/

/-- The words of a running `KEYEXP` after the round `r`: those before it, and the one it stores (41 R131). -/
theorem getElem_set_kexpWord {rk : Vector Word 32} {mk : Quad} {r : Fin 32}
    (h : ∀ i : Fin 32, i.val < r.val → rk[i.val] = (keyExpandWords mk)[i.val]) (i : Fin 32) (hi : i.val ≤ r.val) :
    (rk.set r.val (kexpWord (kexpWindow mk r.val) r.val))[i.val] = (keyExpandWords mk)[i.val] := by
  rw [Vector.getElem_set]
  split_ifs with hir
  · rw [getElem_keyExpandWords mk i.isLt, hir]
  · exact h i (by omega)

theorem engineInv_kexpStep {e : Engine} (hphase : e.seq.phase = .kexp) (h : engineInv e) : engineInv (kexpStep e) := by
  obtain ⟨⟨-, hkexp, -, hsave⟩, -, hprogress⟩ := h
  obtain ⟨hop, hnokey, hnotdone⟩ := hkexp hphase
  obtain ⟨mk, hx, hwords⟩ := hprogress hphase
  have hcsave : e.csave = quadZero := by
    by_contra hne
    exact absurd (hphase.symm.trans (hsave hne).1) nofun
  by_cases hr : e.seq.rnd.val < 31
  · rw [kexpStep_of_lt hr]
    refine ⟨⟨fun hp => ?_, fun _ => ⟨hop, hnokey, hnotdone⟩, fun hp => ?_, fun hne => absurd hcsave hne⟩,
      fun hne => absurd hphase hne, fun _ => ⟨mk, ?_, fun i hi => ?_⟩⟩
    · exact absurd (hphase.symm.trans hp) nofun
    · exact absurd (hphase.symm.trans hp) nofun
    · rw [hx]
      rfl
    · simp only [hx]
      exact getElem_set_kexpWord hwords i (Nat.le_of_lt_succ hi)
  · have hlast : e.seq.rnd = 31 := by omega
    rw [kexpStep_of_last hlast]
    refine engineInv_of_idle rfl rfl hcsave fun _ => ⟨mk, ?_⟩
    rw [hlast] at hx hwords
    simp only [hx]
    ext i hi : 1
    exact getElem_set_kexpWord hwords ⟨i, hi⟩ (Nat.le_of_lt_succ hi)

theorem engineInv_cryptStep {e : Engine} (hphase : e.seq.phase = .crypt) (h : engineInv e) :
    engineInv (cryptStep e) := by
  obtain ⟨⟨-, -, hcrypt, hsave⟩, hsched, -⟩ := h
  have hrk := hsched (by simp [hphase])
  by_cases hr : e.seq.rnd.val < 31
  · rw [cryptStep_of_lt hr]
    refine ⟨⟨fun hp => ?_, fun hp => ?_, hcrypt, hsave⟩, fun _ => hrk, fun hp => ?_⟩
    all_goals exact absurd (hphase.symm.trans hp) nofun
  · have hlast : e.seq.rnd = 31 := by omega
    rw [cryptStep_of_last hlast]
    exact engineInv_of_idle rfl rfl rfl hrk

theorem engineInv_engineStep {e : Engine} (h : engineInv e) : engineInv (engineStep e) := by
  obtain ⟨-, hstep⟩ | ⟨hphase, hstep⟩ | ⟨hphase, hstep⟩ := engineStep_cases e
  · rwa [hstep]
  · rw [hstep]
    exact engineInv_kexpStep hphase h
  · rw [hstep]
    exact engineInv_cryptStep hphase h

/-! ## An accepted command -/

theorem engineInv_acceptKeyexp {e : Engine} (hcsave : e.csave = quadZero) : engineInv (acceptKeyexp e) :=
  ⟨⟨nofun, fun _ => ⟨rfl, rfl, rfl⟩, nofun, fun hne => absurd hcsave hne⟩, fun hne => absurd rfl hne,
    fun _ => ⟨e.key, rfl, nofun⟩⟩

/-- All block commands: `CSAVE` is used by `op` 11 only, and CBC needs a valid chain. -/
theorem engineInv_acceptBlock {op : BitVec 2} {q c : Quad} {e : Engine} (hcheck : blockCheck (opMode op) e = none)
    (hc : c = quadZero ∨ op = 0b11#2) (hrk : e.keyValid = true → ∃ mk, e.rk = keyExpandWords mk) :
    engineInv (acceptBlock op q c e) := by
  obtain ⟨hkey, hiv, -⟩ := (blockCheck_eq_none_iff ..).mp hcheck
  exact ⟨⟨nofun, nofun, fun _ => ⟨hkey, rfl, hiv⟩, fun hne => ⟨rfl, hc.resolve_left hne⟩⟩, fun _ => hrk, nofun⟩

theorem engineInv_commandAccept {i : Instr} {e : Engine} (hidle : busy e = false) (hcheck : commandCheck i e = none)
    (h : engineInv e) : engineInv (commandAccept i e) := by
  have hphase := (busy_eq_false_iff e).mp hidle
  obtain ⟨⟨hseq, -⟩, hsched, -⟩ := id h
  obtain ⟨hrnd, hop, hx, hcsave⟩ := hseq hphase
  have hrk := hsched (by simp [hphase])
  cases i with
  | nop => exact h
  | keyexp => exact engineInv_acceptKeyexp hcsave
  | ivload => exact engineInv_of_idle (Seq.eq_seqIdle hphase hrnd hop) hx hcsave hrk
  | zero => exact engineInv_reset
  | ecbEnc => exact engineInv_acceptBlock hcheck (.inl hcsave) hrk
  | ecbDec => exact engineInv_acceptBlock hcheck (.inl hcsave) hrk
  | cbcEnc => exact engineInv_acceptBlock hcheck (.inl hcsave) hrk
  | cbcDec => exact engineInv_acceptBlock hcheck (.inr rfl) hrk

/-! ## One event, one step -/

theorem engineInv_of_eventEffect {e e' : Engine} {ev : BusEvent} (heffect : EventEffect e ev e') (h : engineInv e) :
    engineInv e' := by
  cases heffect with
  | unchanged => exact h
  | reset => exact engineInv_reset
  | @slotWritten off slot v hslot hcmd =>
    exact engineInv_of_sameDatapath (sameDatapath_writeSlot e slot v) (done_writeSlot_of_not_done slot v) h
  | rejected v x => exact engineInv_of_sameDatapath (sameDatapath_raise x e) id h
  | accepted i hidle hcheck => exact engineInv_commandAccept hidle hcheck h

theorem engineInv_of_stepEffect {s : State} {e' : Engine} (heffect : StepEffect s e') (h : engineInv s.engine) :
    engineInv e' := by
  cases heffect with
  | quiet => exact h
  | engineStep hbusy => exact engineInv_engineStep h
  | event hpending heffect => exact engineInv_of_eventEffect heffect h

/-! ## The statements -/

/-- Settles O34: the invariants are kept in every case of a step. -/
theorem stepKeepsInvariant : Obligations.StepKeepsInvariant := by
  unfold Obligations.StepKeepsInvariant
  intro s s' h hstep
  rw [stateInv_iff] at h ⊢
  exact engineInv_of_stepEffect (stepEffect_of_step hstep) h

/-- Settles O35: the reset engine is idle with no valid schedule. -/
theorem resetMeetsInvariant : Obligations.ResetMeetsInvariant :=
  (stateInv_iff State.reset).mpr engineInv_reset

end Sys2Proof.Machine
end

section
/-! PROOFS. What an accepted command and an engine step leave unchanged: the frame of the commands (41 R130; 43 R150
to R154; 44 R170) and of the rounds (41 R131; 42 R142), a clause at a time. -/

namespace Sys2Proof.Machine

open Sys2Proof

/-! ## An accepted command -/

section
variable {i : Instr} (e : Engine)

/-- What only `ZERO` writes. -/
theorem commandAccept_frame (hzero : i ≠ .zero) :
    (commandAccept i e).ctrl = e.ctrl ∧ (commandAccept i e).iv = e.iv ∧ (commandAccept i e).ivw = e.ivw ∧
    (commandAccept i e).din = e.din ∧ (commandAccept i e).dout = e.dout ∧ (commandAccept i e).rk = e.rk := by
  cases i with
  | zero => exact absurd rfl hzero
  | _ => exact ⟨rfl, rfl, rfl, rfl, rfl, rfl⟩

theorem commandAccept_key (hzero : i ≠ .zero) (hkeyexp : i ≠ .keyexp) :
    (commandAccept i e).key = e.key ∧ (commandAccept i e).keyw = e.keyw ∧
    (commandAccept i e).keyValid = e.keyValid := by
  cases i with
  | zero => exact absurd rfl hzero
  | keyexp => exact absurd rfl hkeyexp
  | _ => exact ⟨rfl, rfl, rfl⟩

theorem commandAccept_chain (hzero : i ≠ .zero) (hivload : i ≠ .ivload) :
    (commandAccept i e).chain = e.chain ∧ (commandAccept i e).ivValid = e.ivValid := by
  cases i with
  | zero => exact absurd rfl hzero
  | ivload => exact absurd rfl hivload
  | _ => exact ⟨rfl, rfl⟩

theorem commandAccept_csave (hzero : i ≠ .zero) (hcbcDec : i ≠ .cbcDec) : (commandAccept i e).csave = e.csave := by
  cases i with
  | zero => exact absurd rfl hzero
  | cbcDec => exact absurd rfl hcbcDec
  | _ => rfl

theorem commandAccept_dinw (hi : i = .nop ∨ i = .ivload ∨ i = .keyexp) : (commandAccept i e).dinw = e.dinw := by
  obtain rfl | rfl | rfl := hi <;> rfl

theorem commandAccept_seq (hi : i = .nop ∨ i = .ivload) :
    (commandAccept i e).seq = e.seq ∧ (commandAccept i e).x = e.x := by
  obtain rfl | rfl := hi <;> exact ⟨rfl, rfl⟩

end

/-- Everything a command can do to the machine: it is rejected, or an idle engine accepts it. -/
theorem exec_cases (i : Instr) (s : State) :
    (∃ x, exec i s = .next (s.withEngine (raise x s.engine))) ∨
    (busy s.engine = false ∧ commandCheck i s.engine = none ∧
      exec i s = .next (s.withEngine (commandAccept i s.engine))) := by
  rw [runsCommand_of_instr i s]
  obtain ⟨-, hrun⟩ | ⟨x, -, -, hrun⟩ | ⟨hidle, hcheck, hrun⟩ :=
    runCommand_cases (commandCheck i) (commandAccept i) s.engine
  · exact .inl ⟨.eBusy, by rw [hrun]⟩
  · exact .inl ⟨x, by rw [hrun]⟩
  · exact .inr ⟨hidle, hcheck, by rw [hrun]⟩

/-- Settles O17: a rejection changes the flags only; an accepted command is framed clause by clause. -/
theorem commandsFrame : Obligations.CommandsFrame := by
  unfold Obligations.CommandsFrame
  intro i s s' h
  obtain ⟨x, hexec⟩ | ⟨-, -, hexec⟩ := exec_cases i s
  · obtain rfl := Host.Outcome.next.inj (hexec.symm.trans h)
    exact ⟨⟨rfl, rfl, rfl, rfl, rfl⟩, fun _ => ⟨rfl, rfl, rfl, rfl, rfl, rfl⟩, fun _ _ => ⟨rfl, rfl, rfl⟩,
      fun _ _ => ⟨rfl, rfl⟩, fun _ => rfl, fun _ _ => rfl, fun _ => ⟨rfl, rfl⟩, fun _ => rfl⟩
  · obtain rfl := Host.Outcome.next.inj (hexec.symm.trans h)
    refine ⟨⟨rfl, rfl, rfl, rfl, rfl⟩, commandAccept_frame _, commandAccept_key _, commandAccept_chain _,
      commandAccept_dinw _, commandAccept_csave _, commandAccept_seq _, ?_⟩
    rintro rfl
    rfl

/-! ## An engine step -/

theorem engineStep_of_kexp {e : Engine} (h : e.seq.phase = .kexp) : engineStep e = kexpStep e := by
  simp [engineStep, h]

theorem engineStep_of_crypt {e : Engine} (h : e.seq.phase = .crypt) : engineStep e = cryptStep e := by
  simp [engineStep, h]

/-- A round that is not the last has a next one. -/
theorem rnd_lt_or_eq_last (e : Engine) : e.seq.rnd.val < 31 ∨ e.seq.rnd = 31 := by
  omega

theorem kexpStep_frame (e : Engine) :
    (kexpStep e).err = e.err ∧ (kexpStep e).dout = e.dout ∧ (kexpStep e).chain = e.chain := by
  obtain hr | hr := rnd_lt_or_eq_last e
  · rw [kexpStep_of_lt hr]
    exact ⟨rfl, rfl, rfl⟩
  · rw [kexpStep_of_last hr]
    exact ⟨rfl, rfl, rfl⟩

theorem cryptStep_frame (e : Engine) : (cryptStep e).err = e.err ∧ (cryptStep e).rk = e.rk := by
  obtain hr | hr := rnd_lt_or_eq_last e
  · rw [cryptStep_of_lt hr]
    exact ⟨rfl, rfl⟩
  · rw [cryptStep_of_last hr]
    exact ⟨rfl, rfl⟩

theorem engineStep_err (e : Engine) : (engineStep e).err = e.err := by
  obtain ⟨-, hstep⟩ | ⟨-, hstep⟩ | ⟨-, hstep⟩ := engineStep_cases e <;> rw [hstep]
  · exact (kexpStep_frame e).1
  · exact (cryptStep_frame e).1

theorem phase_eq_kexp_of_rk_ne {e : Engine} (hne : (engineStep e).rk ≠ e.rk) : e.seq.phase = .kexp := by
  obtain ⟨-, hstep⟩ | ⟨hphase, -⟩ | ⟨-, hstep⟩ := engineStep_cases e
  · exact absurd (congrArg Engine.rk hstep) hne
  · exact hphase
  · exact absurd ((congrArg Engine.rk hstep).trans (cryptStep_frame e).2) hne

/-- The completing step of a block command, seen from a register that no other engine step writes. -/
theorem completes_of_ne {α : Type} {f : Engine → α} {e : Engine} (hne : f (engineStep e) ≠ f e)
    (hkexp : f (kexpStep e) = f e) (hround : e.seq.rnd.val < 31 → f (cryptStep e) = f e) :
    e.seq.phase = .crypt ∧ e.seq.rnd = 31 := by
  obtain ⟨-, hstep⟩ | ⟨-, hstep⟩ | ⟨hphase, hstep⟩ := engineStep_cases e
  · exact absurd (congrArg f hstep) hne
  · exact absurd ((congrArg f hstep).trans hkexp) hne
  · exact ⟨hphase, (rnd_lt_or_eq_last e).resolve_left fun hr => hne ((congrArg f hstep).trans (hround hr))⟩

theorem completes_of_dout_ne {e : Engine} (hne : (engineStep e).dout ≠ e.dout) :
    e.seq.phase = .crypt ∧ e.seq.rnd = 31 :=
  completes_of_ne hne (kexpStep_frame e).2.1 fun hr => by rw [cryptStep_of_lt hr]

theorem engineStep_done_of_completes {e : Engine} (hphase : e.seq.phase = .crypt) (hr : e.seq.rnd = 31) :
    (engineStep e).done = true := by
  rw [engineStep_of_crypt hphase, cryptStep_of_last hr]

/-- An ECB command leaves `CHAIN` alone in its completing step too. -/
theorem completes_cbc_of_chain_ne {e : Engine} (hne : (engineStep e).chain ≠ e.chain) :
    e.seq.phase = .crypt ∧ e.seq.rnd = 31 ∧ e.seq.op.getLsbD 1 = true := by
  obtain ⟨hphase, hr⟩ := completes_of_ne hne (kexpStep_frame e).2.2 fun hr => by rw [cryptStep_of_lt hr]
  refine ⟨hphase, hr, ?_⟩
  by_contra hecb
  have hmode : opMode e.seq.op = false := Bool.eq_false_iff.mpr hecb
  rw [engineStep_of_crypt hphase, cryptStep_of_last hr, hmode] at hne
  exact hne rfl

/-! ## One round, as the rules write it -/

/-- Settles O18: the two equations of the step in phase `KEXP`. -/
theorem kexpStepDoesOneRound : Obligations.KexpStepDoesOneRound := by
  unfold Obligations.KexpStepDoesOneRound
  intro e hphase t
  rw [engineStep_of_kexp hphase]
  constructor
  · intro r hr
    have hlt : e.seq.rnd.val < 31 := by omega
    obtain rfl : r = ⟨e.seq.rnd.val + 1, Nat.succ_lt_succ hlt⟩ := Fin.ext hr
    rw [kexpStep_of_lt hlt]
    rfl
  · intro hlast
    have ht : kexpWord e.x 31 = t := by simp only [t, hlast]; rfl
    rw [kexpStep_of_last hlast, ht]
    rfl

/-- Settles O19: the round's subkey, then the two equations of the step in phase `CRYPT`; the three completing cases
are those of `completeOutput`. -/
theorem cryptStepDoesOneRound : Obligations.CryptStepDoesOneRound := by
  unfold Obligations.CryptStepDoesOneRound
  intro e hphase k t y idle
  have ht : roundF e.x (subkey e.rk (opDir e.seq.op) e.seq.rnd) = t := rfl
  rw [engineStep_of_crypt hphase]
  refine ⟨fun r hr => ?_, fun hlast hecb => ?_, fun hlast hop => ?_, fun hlast hop => ?_⟩
  · have hlt : e.seq.rnd.val < 31 := by omega
    obtain rfl : r = ⟨e.seq.rnd.val + 1, Nat.succ_lt_succ hlt⟩ := Fin.ext hr
    rw [cryptStep_of_lt hlt, ht]
    rfl
  · have hmode : opMode e.seq.op = false := hecb
    rw [cryptStep_of_last hlast, ← hlast, ht, hmode]
    rfl
  · have hmode : opMode e.seq.op = true := by rw [hop]; rfl
    have hdir : opDir e.seq.op = false := by rw [hop]; rfl
    rw [cryptStep_of_last hlast, ← hlast, ht, hmode, hdir]
    rfl
  · have hmode : opMode e.seq.op = true := by rw [hop]; rfl
    have hdir : opDir e.seq.op = true := by rw [hop]; rfl
    rw [cryptStep_of_last hlast, ← hlast, ht, hmode, hdir]
    rfl

end Sys2Proof.Machine
end

section
/-! PROOFS. The rules about whole steps (spec/10_state.md R24, R26, R27, R35, R38; spec/20_memory.md R64, R70;
spec/44_control_commands.md R173), each read off the cases of a step: who may write the datapath, who may clear an
error flag, that nothing stops the machine. -/

namespace Sys2Proof.Machine

open Sys2Proof

/-! ## Who may write the datapath -/

theorem EventEffect.datapath_cases {e e' : Engine} {ev : BusEvent} (h : EventEffect e ev e') :
    sameDatapath e e' ∨ (ev = .reset ∧ e' = Engine.reset) ∨
    (∃ i, busy e = false ∧ ev = .write 0x08 4 (encode i) ∧ e' = commandAccept i e) := by
  cases h with
  | unchanged => exact .inl (sameDatapath_refl e)
  | reset => exact .inr (.inl ⟨rfl, rfl⟩)
  | slotWritten v => exact .inl (sameDatapath_writeSlot e _ v)
  | rejected v x => exact .inl (sameDatapath_raise x e)
  | accepted i hidle => exact .inr (.inr ⟨i, hidle, rfl, rfl⟩)

/-- A step that touches the datapath is an engine step, reset, or an idle engine's acceptance of a command. -/
theorem step_datapath_cases {s s' : State} (h : step s = .next s') :
    sameDatapath s.engine s'.engine ∨
    (busy s.engine = true ∧ s'.engine = engineStep s.engine) ∨
    (∃ rest, s.pending = .reset :: rest ∧ s'.engine = Engine.reset) ∨
    (∃ i rest, busy s.engine = false ∧ s.pending = .write 0x08 4 (encode i) :: rest ∧
      s'.engine = commandAccept i s.engine) := by
  have heffect := stepEffect_of_step h
  generalize s'.engine = e' at heffect
  cases heffect with
  | quiet => exact .inl (sameDatapath_refl _)
  | engineStep hbusy => exact .inr (.inl ⟨hbusy, rfl⟩)
  | @event ev rest _ hpending heffect =>
    obtain hsame | ⟨rfl, he⟩ | ⟨i, hidle, rfl, he⟩ := heffect.datapath_cases
    · exact .inl hsame
    · exact .inr (.inr (.inl ⟨rest, hpending, he⟩))
    · exact .inr (.inr (.inr ⟨i, rest, hidle, hpending, he⟩))

/-- The rows of R173 that an engine step takes. -/
theorem engineStep_seq_cases {e : Engine} (hbusy : busy e = true) :
    ((engineStep e).seq.phase = e.seq.phase ∧ (engineStep e).seq.op = e.seq.op ∧
      (engineStep e).seq.rnd.val = e.seq.rnd.val + 1) ∨
    (e.seq.rnd = 31 ∧ (engineStep e).seq = seqIdle) := by
  obtain hphase | hphase := (busy_eq_true_iff e).mp hbusy
  · rw [engineStep_of_kexp hphase]
    obtain hr | hr := rnd_lt_or_eq_last e
    · rw [kexpStep_of_lt hr]
      exact .inl ⟨rfl, rfl, rfl⟩
    · rw [kexpStep_of_last hr]
      exact .inr ⟨hr, rfl⟩
  · rw [engineStep_of_crypt hphase]
    obtain hr | hr := rnd_lt_or_eq_last e
    · rw [cryptStep_of_lt hr]
      exact .inl ⟨rfl, rfl, rfl⟩
    · rw [cryptStep_of_last hr]
      exact .inr ⟨hr, rfl⟩

/-- Settles O22: a block command's `op` is the low two bits of its word. -/
theorem sequencerTransitions : Obligations.SequencerTransitions := by
  unfold Obligations.SequencerTransitions
  intro s s' h
  obtain ⟨hseq, -⟩ | ⟨hbusy, he⟩ | ⟨rest, hpending, he⟩ | ⟨i, rest, hidle, hpending, he⟩ := step_datapath_cases h
  · exact .inl hseq.symm
  · refine .inr (.inr (.inr (.inr ?_)))
    obtain ⟨hphase, hop, hrnd⟩ | ⟨hrnd, hseq⟩ := engineStep_seq_cases hbusy
    · exact .inl ⟨hbusy, he, by rw [he, hphase], by rw [he, hop], by rw [he, hrnd]⟩
    · exact .inr (.inl ⟨hbusy, he, hrnd, by rw [he, hseq]; rfl⟩)
  · exact .inr (.inr (.inr (.inr (.inr (.inr ⟨rest, hpending, by rw [he]; rfl⟩)))))
  · rw [he]
    cases i with
    | nop | ivload => exact .inl rfl
    | keyexp => exact .inr (.inl ⟨rest, hidle, hpending, rfl⟩)
    | zero => exact .inr (.inr (.inr (.inl ⟨rest, hidle, hpending, rfl⟩)))
    | ecbEnc | ecbDec | cbcEnc | cbcDec =>
      exact .inr (.inr (.inl ⟨_, rest, hidle, hpending, by decide, rfl⟩))

/-- Settles O37: of the cases that touch the datapath only these write `RK`. -/
theorem roundKeysWrittenOnlyByKeyexp : Obligations.RoundKeysWrittenOnlyByKeyexp := by
  unfold Obligations.RoundKeysWrittenOnlyByKeyexp
  intro s s' h hne
  obtain ⟨-, -, -, hrk, -⟩ | ⟨-, he⟩ | ⟨rest, hpending, -⟩ | ⟨i, rest, hidle, hpending, he⟩ := step_datapath_cases h
  · exact absurd hrk.symm hne
  · rw [he] at hne
    exact .inl ⟨phase_eq_kexp_of_rk_ne hne, he⟩
  · exact .inr (.inr ⟨rest, hpending⟩)
  · by_cases hzero : i = .zero
    · subst hzero
      exact .inr (.inl ⟨rest, hidle, hpending⟩)
    · obtain ⟨-, -, -, -, -, hrk⟩ := commandAccept_frame s.engine hzero
      exact absurd (he ▸ hrk) hne

/-- Settles O38: of the cases that touch the datapath only these write `DOUT`. -/
theorem outputPublishedOnlyOnCompletion : Obligations.OutputPublishedOnlyOnCompletion := by
  unfold Obligations.OutputPublishedOnlyOnCompletion
  intro s s' h hne
  obtain ⟨-, -, -, -, -, hdout, -⟩ | ⟨-, he⟩ | ⟨rest, hpending, -⟩ | ⟨i, rest, hidle, hpending, he⟩ :=
    step_datapath_cases h
  · exact absurd hdout.symm hne
  · rw [he] at hne
    obtain ⟨hphase, hr⟩ := completes_of_dout_ne hne
    exact .inl ⟨hphase, hr, he, he ▸ engineStep_done_of_completes hphase hr⟩
  · exact .inr (.inr ⟨rest, hpending⟩)
  · by_cases hzero : i = .zero
    · subst hzero
      exact .inr (.inl ⟨rest, hidle, hpending⟩)
    · obtain ⟨-, -, -, -, hdout, -⟩ := commandAccept_frame s.engine hzero
      exact absurd (he ▸ hdout) hne

/-- Settles O39: of the cases that touch the datapath only these write `CHAIN`. -/
theorem chainWrittenOnlyByIvloadAndCbc : Obligations.ChainWrittenOnlyByIvloadAndCbc := by
  unfold Obligations.ChainWrittenOnlyByIvloadAndCbc
  intro s s' h hne
  obtain ⟨-, -, -, -, hchain, -⟩ | ⟨-, he⟩ | ⟨rest, hpending, -⟩ | ⟨i, rest, hidle, hpending, he⟩ :=
    step_datapath_cases h
  · exact absurd hchain.symm hne
  · rw [he] at hne
    obtain ⟨hphase, hr, hcbc⟩ := completes_cbc_of_chain_ne hne
    exact .inr (.inl ⟨hphase, hr, hcbc, he⟩)
  · exact .inr (.inr (.inr ⟨rest, hpending⟩))
  · by_cases hzero : i = .zero
    · subst hzero
      exact .inr (.inr (.inl ⟨rest, hidle, hpending⟩))
    by_cases hivload : i = .ivload
    · subst hivload
      exact .inl ⟨rest, hidle, hpending, congrArg Engine.chain he⟩
    · exact absurd (he ▸ (commandAccept_chain s.engine hzero hivload).1) hne

/-! ## Who may clear an error flag -/

/-- Only a `STATUS` write touches the error flags among the writes of slots. -/
theorem writeSlot_err {slot : Slot} (h : slot ≠ .status) (e : Engine) (v : Word) : (writeSlot e slot v).err = e.err := by
  cases slot with
  | status => exact absurd rfl h
  | _ => rfl

theorem EventEffect.clears_cases {e e' : Engine} {ev : BusEvent} {x : Err} (h : EventEffect e ev e')
    (hset : e.err.get x = true) (hclear : e'.err.get x = false) :
    (∃ v, ev = .write 0x04 4 v ∧ v.getLsbD x.code = true) ∨ (busy e = false ∧ ev = .write 0x08 4 0x3#32) ∨
    ev = .reset := by
  have hne : e'.err ≠ e.err := fun heq => by simp [heq, hset] at hclear
  cases h with
  | unchanged => exact absurd rfl hne
  | reset => exact .inr (.inr rfl)
  | @slotWritten off slot v hslot hcmd =>
    by_cases hstatus : slot = .status
    · subst hstatus
      obtain rfl := off_of_slotAt_status hslot
      have hbit : (e.err.get x && !v.getLsbD x.code) = false := (ErrFlags.get_writeOneToClear ..).symm.trans hclear
      exact .inl ⟨v, rfl, by simpa [hset] using hbit⟩
    · exact absurd (writeSlot_err hstatus e v) hne
  | rejected v y => simp [ErrFlags.get_set, hset] at hclear
  | accepted i hidle =>
    by_cases hzero : i = .zero
    · subst hzero
      exact .inr (.inl ⟨hidle, rfl⟩)
    · exact absurd (commandAccept_err hzero e) hne

/-- Settles O40: the engine step touches no error flag, and of the events only these clear one. -/
theorem errorFlagsAreSticky : Obligations.ErrorFlagsAreSticky := by
  unfold Obligations.ErrorFlagsAreSticky
  intro s s' x h hset hclear
  have heffect := stepEffect_of_step h
  generalize s'.engine = e' at heffect hclear
  cases heffect with
  | quiet => simp [hset] at hclear
  | engineStep => simp [engineStep_err, hset] at hclear
  | @event ev rest _ hpending heffect =>
    obtain ⟨v, rfl, hbit⟩ | ⟨hidle, rfl⟩ | rfl := heffect.clears_cases hset hclear
    · exact .inl ⟨v, rest, hpending, hbit⟩
    · exact .inr (.inl ⟨rest, hidle, hpending⟩)
    · exact .inr (.inr ⟨rest, hpending⟩)

/-! ## A running command depends on the datapath only -/

theorem sameDatapath_kexpStep {a b : Engine} (h : sameDatapath a b) : sameDatapath (kexpStep a) (kexpStep b) := by
  obtain ⟨hseq, hx, hcsave, hrk, hchain, hdout, hkey, hiv⟩ := h
  obtain hr | hr := rnd_lt_or_eq_last a
  · rw [kexpStep_of_lt hr, kexpStep_of_lt (hseq ▸ hr)]
    simp only [sameDatapath, hseq, hx, hcsave, hrk, hchain, hdout, hkey, hiv, and_self]
  · rw [kexpStep_of_last hr, kexpStep_of_last (hseq ▸ hr)]
    simp only [sameDatapath, hx, hcsave, hrk, hchain, hdout, hiv, and_self]

theorem sameDatapath_cryptStep {a b : Engine} (h : sameDatapath a b) : sameDatapath (cryptStep a) (cryptStep b) := by
  obtain ⟨hseq, hx, hcsave, hrk, hchain, hdout, hkey, hiv⟩ := h
  obtain hr | hr := rnd_lt_or_eq_last a
  · rw [cryptStep_of_lt hr, cryptStep_of_lt (hseq ▸ hr)]
    simp only [sameDatapath, hseq, hx, hcsave, hrk, hchain, hdout, hkey, hiv, and_self]
  · rw [cryptStep_of_last hr, cryptStep_of_last (hseq ▸ hr)]
    simp only [sameDatapath, hseq, hx, hcsave, hrk, hchain, hkey, hiv, and_self]

theorem sameDatapath_engineStep {a b : Engine} (h : sameDatapath a b) :
    sameDatapath (engineStep a) (engineStep b) := by
  have hphase : b.seq.phase = a.seq.phase := congrArg Seq.phase h.1.symm
  unfold engineStep
  rw [hphase]
  cases a.seq.phase with
  | idle => exact h
  | kexp => exact sameDatapath_kexpStep h
  | crypt => exact sameDatapath_cryptStep h

theorem sameDatapath_engineSteps (n : Nat) {a b : Engine} (h : sameDatapath a b) :
    sameDatapath (engineSteps n a) (engineSteps n b) := by
  induction n generalizing a b with
  | zero => exact h
  | succ n ih => exact ih (sameDatapath_engineStep h)

/-- Settles O41: the acceptance of a command needs an idle engine. -/
theorem runningCommandIsUndisturbed : Obligations.RunningCommandIsUndisturbed := by
  unfold Obligations.RunningCommandIsUndisturbed
  refine ⟨fun s s' ev hbusy hreset h => ?_, fun a b n h => sameDatapath_engineSteps n h⟩
  obtain hsame | ⟨rfl, -⟩ | ⟨i, hidle, -⟩ := (eventEffect_of_performEvent h).datapath_cases
  · exact hsame
  · exact absurd rfl hreset
  · exact absurd (hidle.symm.trans hbusy) Bool.false_ne_true

/-! ## What the host can read -/

/-- The words and the level of `irq` are functions of what `sameView` lists; so is what a host writes there. -/
theorem sameView_writeSlot {a b : Engine} (h : sameView a b) (slot : Slot) (v : Word) :
    sameView (writeSlot a slot v) (writeSlot b slot v) := by
  obtain ⟨hctrl, hdone, hkey, hivv, herr, hkeyw, hivw, hdinw, hiv, hdin, hdout, hbusy⟩ := id h
  cases slot with
  | ctrl => exact ⟨rfl, hdone, hkey, hivv, herr, hkeyw, hivw, hdinw, hiv, hdin, hdout, hbusy⟩
  | status =>
    refine ⟨hctrl, ?_, hkey, hivv, ?_, hkeyw, hivw, hdinw, hiv, hdin, hdout, hbusy⟩
    · simp only [writeSlot, writeStatus_done, hdone]
    · simp only [writeSlot, writeStatus_err, herr]
  | key i => exact ⟨hctrl, hdone, hkey, hivv, herr, congrArg (maskSet · i) hkeyw, hivw, hdinw, hiv, hdin, hdout, hbusy⟩
  | iv i =>
    exact ⟨hctrl, hdone, hkey, hivv, herr, hkeyw, congrArg (maskSet · i) hivw, hdinw, congrArg (quadSet · i v) hiv,
      hdin, hdout, hbusy⟩
  | din i =>
    exact ⟨hctrl, hdone, hkey, hivv, herr, hkeyw, hivw, congrArg (maskSet · i) hdinw, hiv,
      congrArg (quadSet · i v) hdin, hdout, hbusy⟩
  | cmd | dout _ | reserved => exact h

theorem readSlot_of_sameView {a b : Engine} (h : sameView a b) (slot : Slot) : readSlot a slot = readSlot b slot := by
  obtain ⟨hctrl, hdone, hkey, hivv, herr, hkeyw, hivw, hdinw, hiv, hdin, hdout, hbusy⟩ := h
  cases slot with
  | ctrl => simp only [readSlot, ctrlWord, hctrl]
  | status => simp only [readSlot, statusWord, hdone, hkey, hivv, herr, hkeyw, hivw, hdinw, hbusy]
  | iv i => simp only [readSlot, hiv]
  | din i => simp only [readSlot, hdin]
  | dout i => simp only [readSlot, hdout]
  | cmd | key _ | reserved => rfl

theorem irq_of_sameView {a b : Engine} (h : sameView a b) : irq a = irq b := by
  obtain ⟨hctrl, hdone, -, -, herr, -⟩ := h
  simp only [irq, hctrl, hdone, herr]

/-- Settles O42: each slot and `irq` is a function of the visible registers. -/
theorem hiddenStateIsUnreadable : Obligations.HiddenStateIsUnreadable := by
  unfold Obligations.HiddenStateIsUnreadable
  exact fun a b h => ⟨irq_of_sameView h, fun slot => ⟨readSlot_of_sameView h slot, sameView_writeSlot h slot⟩⟩

/-! ## Nothing stops the machine -/

theorem slotAt_of_allowed {off bytes : Nat} (h : (bytes == 4 && off % 4 == 0 && decide (off < 256)) = true) :
    slotAt off bytes = .ok (slotNumbered (off / 4)) := by
  simp only [Bool.and_eq_true, beq_iff_eq, decide_eq_true_eq] at h
  obtain ⟨⟨rfl, halign⟩, hwin⟩ := h
  exact slotAt_of_access halign hwin

/-- An action of the interface answers, and only the poll of `wait` asks to come again. -/
theorem performEvent_of_allowed {ev : BusEvent} (h : eventAllowed ev = true) (s : State) :
    ∃ s', performEvent ev s = .next s' ∧ (s'.pending = s.pending ∨ s'.pending = .poll :: s.pending) := by
  cases ev with
  | read off bytes => exact ⟨_, busRead_of_slotAt (slotAt_of_allowed h) s, .inl rfl⟩
  | write off bytes v =>
    obtain ⟨e, hwrite⟩ := busWrite_eq_next (slotAt_of_allowed h) v s
    exact ⟨_, hwrite, .inl rfl⟩
  | poll =>
    simp only [performEvent, busPoll]
    split
    · exact ⟨_, rfl, .inr rfl⟩
    · exact ⟨_, rfl, .inl rfl⟩
  | observeIrq => exact ⟨_, rfl, .inl rfl⟩
  | reset => exact ⟨_, rfl, .inl rfl⟩

/-- Settles O36: a step that is an event leaves the rest of the obedient host's events, and perhaps the poll. -/
theorem obedientHostNeverStops : Obligations.ObedientHostNeverStops := by
  unfold Obligations.ObedientHostNeverStops
  intro s hobeys
  obtain ⟨-, -, hstep⟩ | ⟨-, -, hstep⟩ | ⟨ev, rest, hpending, -, hstep⟩ := step_cases s
  · exact ⟨s, hstep, hobeys⟩
  · exact ⟨takeEngineStep s, hstep, hobeys⟩
  · obtain ⟨hev, hrest⟩ : eventAllowed ev = true ∧ ∀ ev' ∈ rest, eventAllowed ev' = true := by
      simpa [hostObeys, hpending] using hobeys
    obtain ⟨s', hnext, hkept | hpolled⟩ := performEvent_of_allowed hev (takeEvent s rest)
    · exact ⟨s', hstep.trans hnext, by rwa [hostObeys, hkept]⟩
    · refine ⟨s', hstep.trans hnext, ?_⟩
      rw [hostObeys, hpolled]
      exact List.forall_mem_cons.mpr ⟨rfl, hrest⟩

end Sys2Proof.Machine
end

section
/-! PROOFS. Who moves next, as equations (spec/00_scope.md R11, spec/70_reset_and_hazards.md R266; log 1). -/

namespace Sys2Proof.Machine

open Sys2Proof

theorem step_of_engine_turn {s : State} (hbusy : busy s.engine = true) (hturn : s.pending = [] ∨ hostBudget s = 0) :
    step s = .next (takeEngineStep s) := by
  obtain ⟨-, hidle, -⟩ | ⟨-, -, hstep⟩ | ⟨ev, rest, hpending, hhost, -⟩ := step_cases s
  · exact absurd (hidle.symm.trans hbusy) Bool.false_ne_true
  · exact hstep
  · have hzero : hostBudget s = 0 := hturn.resolve_left (by simp [hpending])
    have hpos : 0 < hostBudget s := hhost.resolve_left (by simp [hbusy])
    omega

theorem step_of_quiet {s : State} (hidle : busy s.engine = false) (hpending : s.pending = []) : step s = .next s := by
  simp [step, nextMove, hidle, hpending]

theorem step_of_event {s : State} {ev : BusEvent} {rest : List BusEvent} (hpending : s.pending = ev :: rest)
    (hturn : busy s.engine = false ∨ 0 < hostBudget s) : step s = performEvent ev (takeEvent s rest) := by
  obtain ⟨hnone, -⟩ | ⟨hbusy, hengine, -⟩ | ⟨ev', rest', hpending', -, hstep⟩ := step_cases s
  · simp [hpending] at hnone
  · have hzero : hostBudget s = 0 := hengine.resolve_left (by simp [hpending])
    have hpos : 0 < hostBudget s := hturn.resolve_left (by simp [hbusy])
    omega
  · obtain ⟨rfl, rfl⟩ := List.cons.inj (hpending.symm.trans hpending')
    exact hstep

theorem hostBudget_of_drawn {s : State} {n : Nat} (h : s.budget = some n) : hostBudget s = n := by
  simp [hostBudget, h]

theorem takeEvent_of_idle {s : State} (hidle : busy s.engine = false) (rest : List BusEvent) :
    takeEvent s rest = { s with pending := rest, budget := none, ticks := s.ticks + 1 } := by
  simp [takeEvent, hidle]

theorem takeEvent_of_busy {s : State} {n : Nat} (hbusy : busy s.engine = true) (hbudget : s.budget = some (n + 1))
    (rest : List BusEvent) : takeEvent s rest = { s with pending := rest, budget := some n, ticks := s.ticks + 1 } := by
  simp [takeEvent, hbusy, hostBudget_of_drawn hbudget]

theorem step_of_idle_event {s : State} {ev : BusEvent} {rest : List BusEvent} (hidle : busy s.engine = false)
    (hpending : s.pending = ev :: rest) :
    step s = performEvent ev { s with pending := rest, budget := none, ticks := s.ticks + 1 } := by
  rw [step_of_event hpending (.inl hidle), takeEvent_of_idle hidle]

theorem step_of_busy_event {s : State} {ev : BusEvent} {rest : List BusEvent} {n : Nat} (hbusy : busy s.engine = true)
    (hpending : s.pending = ev :: rest) (hbudget : s.budget = some (n + 1)) :
    step s = performEvent ev { s with pending := rest, budget := some n, ticks := s.ticks + 1 } := by
  have hturn : 0 < hostBudget s := hostBudget_of_drawn hbudget ▸ Nat.succ_pos n
  rw [step_of_event hpending (.inr hturn), takeEvent_of_busy hbusy hbudget]

/-- Settles O20: a clause for each turn. -/
theorem agentsTakeTurns : Obligations.AgentsTakeTurns := by
  unfold Obligations.AgentsTakeTurns
  exact fun s => ⟨fun hbusy hturn => step_of_engine_turn hbusy (hturn.imp_right hostBudget_of_drawn),
    step_of_quiet, fun ev rest => step_of_idle_event, fun ev rest n => step_of_busy_event⟩

/-- The host's write of a command's word. -/
theorem performEvent_encode (i : Instr) (s : State) : performEvent (.write 0x08 4 (encode i)) s = exec i s :=
  (busWrite_cmd slotAt_cmd _ s).trans (writeCmd_encode i s)

/-- Settles O21: the event is the write of a word that decodes to `i`, so it is the word of `i`. -/
theorem stepRunsWrittenCommand : Obligations.StepRunsWrittenCommand := by
  unfold Obligations.StepRunsWrittenCommand
  intro s w i rest hdecode hpending
  obtain rfl := decode_eq_ok_iff.mp hdecode
  refine ⟨fun hidle => ?_, fun n hbusy hbudget => ?_⟩
  · rw [step_of_idle_event hidle hpending, performEvent_encode]
  · rw [step_of_busy_event hbusy hpending hbudget, performEvent_encode]

end Sys2Proof.Machine
end

section
/-! PROOFS. The format of a command word and the registers' own rules (spec/30_encoding.md R90; spec/10_state.md R21
to R25, R32; spec/20_memory.md R72; spec/70_reset_and_hazards.md R260, R261). -/

namespace Sys2Proof.Machine

open Sys2Proof

/-! ## The format of a command word -/

/-- The opcode map's words are the 4-bit values with bit 2 clear. -/
theorem mem_commandWords_of_bit2 :
    ∀ op : BitVec 4, op.getLsbD 2 = false →
      (0#28 ++ op : Word) ∈ [0x0#32, 0x1#32, 0x2#32, 0x3#32, 0x8#32, 0x9#32, 0xA#32, 0xB#32] := by
  decide

theorem wordWellFormed_iff (w : Word) : wordWellFormed w = true ↔ ∃ i, w = encode i := by
  constructor
  · intro h
    obtain ⟨hzero, hbit⟩ : w.extractLsb' 4 28 = 0#28 ∧ w.getLsbD 2 = false := by
      simpa [wordWellFormed, zero28Ok, bit2Ok] using h
    have hjoin : w.extractLsb' 4 28 ++ w.extractLsb' 0 4 = w.extractLsb' 0 32 :=
      BitVec.extractLsb'_append_extractLsb'_eq_extractLsb' rfl
    have hop : w = 0#28 ++ w.extractLsb' 0 4 := by
      rw [← hzero, hjoin, BitVec.extractLsb'_eq_self]
    rw [← mem_commandWords_iff, hop]
    exact mem_commandWords_of_bit2 _ (by simpa using hbit)
  · rintro ⟨i, rfl⟩
    cases i <;> decide

/-- Settles O3: the words in the format are the encodings, and the decoder reads back exactly those. -/
theorem formatDecidesDecode : Obligations.FormatDecidesDecode := by
  unfold Obligations.FormatDecidesDecode
  intro w
  rw [wordWellFormed_iff]
  constructor
  · rintro ⟨i, rfl⟩
    exact ⟨i, decode_encode i, rfl⟩
  · rintro ⟨i, -, rfl⟩
    exact ⟨i, rfl⟩

/-- Settles O1: one evaluation of the decoder for each word. -/
theorem decodeReadsTableWords : Obligations.DecodeReadsTableWords := by
  unfold Obligations.DecodeReadsTableWords
  decide

/-! ## STATUS -/

theorem busy_eq_decide (e : Engine) : busy e = decide (e.seq.phase ≠ .idle) := by
  simp [busy, bne, beq_eq_decide]

/-- The three written masks in `STATUS` (10 R32). -/
theorem getLsbD_statusWord_masks (e : Engine) {i : Nat} (hi : i < 4) :
    (statusWord e).getLsbD (16 + i) = e.keyw.getLsbD i ∧ (statusWord e).getLsbD (20 + i) = e.ivw.getLsbD i ∧
    (statusWord e).getLsbD (24 + i) = e.dinw.getLsbD i := by
  simp only [getLsbD_statusWord]
  refine ⟨?_, ?_, ?_⟩
  all_goals grind

theorem getLsbD_statusWord_reserved (e : Engine) {b : Nat} (hb : (4 ≤ b ∧ b ≤ 7) ∨ b = 15 ∨ 28 ≤ b) :
    (statusWord e).getLsbD b = false := by
  have hwide : 28 ≤ b → e.dinw.getLsbD (b - 24) = false := fun h => BitVec.getLsbD_of_ge _ _ (by omega)
  rw [getLsbD_statusWord]
  grind

/-- Settles O26: offset 4 names `STATUS`, whose bits are the table of 10 R32. -/
theorem statusReadsItsFields : Obligations.StatusReadsItsFields := by
  unfold Obligations.StatusReadsItsFields
  intro s
  have hflag := getLsbD_statusWord_code s.engine
  refine ⟨statusWord s.engine, busRead_of_slotAt slotAt_status s, ?_, getLsbD_statusWord _ 1, getLsbD_statusWord _ 2,
    getLsbD_statusWord _ 3,
    ⟨hflag .eBusy, hflag .eOp, hflag .eKeyLen, hflag .eIvLen, hflag .eDLen, hflag .eNoKey, hflag .eNoIv⟩,
    fun i => getLsbD_statusWord_masks s.engine, fun b => getLsbD_statusWord_reserved s.engine⟩
  exact (getLsbD_statusWord _ 0).trans (busy_eq_decide s.engine)

/-- Settles O27: offset 4 names `STATUS`, whose write is `writeStatus`. -/
theorem statusWriteClearsOnes : Obligations.StatusWriteClearsOnes := by
  unfold Obligations.StatusWriteClearsOnes
  exact fun s v => ⟨writeStatus s.engine v, busWrite_of_slotAt slotAt_status nofun v s, rfl,
    ⟨rfl, rfl, rfl, rfl, rfl, rfl, rfl⟩, rfl⟩

/-! ## The data registers -/

/-- Settles O28: the slot each offset names, and what it reads. -/
theorem dataRegisterReads : Obligations.DataRegisterReads := by
  unfold Obligations.DataRegisterReads
  exact fun s i => ⟨busRead_of_slotAt (slotAt_key i) s, busRead_of_slotAt (slotAt_iv i) s,
    busRead_of_slotAt (slotAt_din i) s, busRead_of_slotAt (slotAt_dout i) s, busRead_of_slotAt slotAt_cmd s⟩

theorem quadGet_quadSet (q : Quad) (i j : Fin 4) (v : Word) :
    quadGet (quadSet q i v) j = if j = i then v else quadGet q j := by
  split_ifs with h
  · rw [h, quadGet_quadSet_same]
  · exact quadGet_quadSet_other q v h

theorem getLsbD_maskSet (m : BitVec 4) (i j : Fin 4) :
    (maskSet m i).getLsbD j.val = (decide (j = i) || m.getLsbD j.val) := by
  have hbit : (1#4 <<< i.val).getLsbD j.val = decide (j = i) := by
    revert i j
    decide
  rw [maskSet, BitVec.getLsbD_or, hbit, Bool.or_comm]

/-- Settles O29: the slot each offset names, and what a write makes of its group's words and mask. -/
theorem stagingWritesStoreAndMark : Obligations.StagingWritesStoreAndMark := by
  unfold Obligations.StagingWritesStoreAndMark
  intro s i v
  exact ⟨
    ⟨_, _, busWrite_of_slotAt (slotAt_key i) nofun v s, fun j => quadGet_quadSet _ i j v, getLsbD_maskSet _ i⟩,
    ⟨_, _, busWrite_of_slotAt (slotAt_iv i) nofun v s, fun j => quadGet_quadSet _ i j v, getLsbD_maskSet _ i⟩,
    ⟨_, _, busWrite_of_slotAt (slotAt_din i) nofun v s, fun j => quadGet_quadSet _ i j v, getLsbD_maskSet _ i⟩,
    busWrite_of_slotAt (slotAt_dout i) nofun v s⟩

/-! ## Reset -/

/-- Settles O31: the event replaces the engine whatever it was. -/
theorem resetInputFromAnyState : Obligations.ResetInputFromAnyState := by
  unfold Obligations.ResetInputFromAnyState
  exact fun s => ⟨s.withEngine Engine.reset, rfl, rfl, rfl, rfl, rfl⟩

/-- Settles O33: the reset engine is idle with no mask full and nothing valid. -/
theorem resetAcceptsOnlyNopAndZero : Obligations.ResetAcceptsOnlyNopAndZero := by
  unfold Obligations.ResetAcceptsOnlyNopAndZero
  have hidle : busy State.reset.engine = false := rfl
  refine ⟨exec_nop_of_idle hidle, exec_zero_of_idle hidle, exec_keyexp_of_not_full hidle (by decide),
    runsCommand_ivload.exec_rejected hidle (ivloadCheck_of_not_full (by decide)), fun i hi => ?_⟩
  have hcheck : commandCheck i State.reset.engine = some .eNoKey := by
    fin_cases hi <;> exact blockCheck_noKey _ rfl
  exact (runsCommand_of_instr i).exec_rejected hidle hcheck

end Sys2Proof.Machine
end

section
/-! PROOFS. The laws of the round primitives (spec/40_primitives.md R120) and of block sequences
(spec/43_mode_commands.md R157), and the known vector (spec/95_test_vectors.md V1, V20). -/

namespace Sys2Proof.Machine

open Sys2Proof

/-! ## The mixing transforms -/

theorem rotl_xor (a b : Word) {n : Nat} (hn : n < 32) : rotl (a ^^^ b) n = rotl a n ^^^ rotl b n := by
  rw [rotl_eq_rotateLeft _ hn, rotl_eq_rotateLeft _ hn, rotl_eq_rotateLeft _ hn]
  ext i hi
  simp only [BitVec.getElem_rotateLeft, BitVec.getElem_xor]
  split_ifs <;> rfl

theorem lData_xor (a b : Word) : lData (a ^^^ b) = lData a ^^^ lData b := by
  simp only [lData, rotl_xor _ _ (show 2 < 32 by decide), rotl_xor _ _ (show 10 < 32 by decide),
    rotl_xor _ _ (show 18 < 32 by decide), rotl_xor _ _ (show 24 < 32 by decide)]
  ac_rfl

theorem lKey_xor (a b : Word) : lKey (a ^^^ b) = lKey a ^^^ lKey b := by
  simp only [lKey, rotl_xor _ _ (show 13 < 32 by decide), rotl_xor _ _ (show 23 < 32 by decide)]
  ac_rfl

/-- Settles O47: the rotations are linear, so their sums are. -/
theorem mixingIsLinear : Obligations.MixingIsLinear := by
  unfold Obligations.MixingIsLinear
  exact fun a b => ⟨lData_xor a b, lKey_xor a b, by decide, by decide, fun n _ hn => rotl_xor a b (by omega)⟩

/-! ## The substitution -/

/-- The place of `b` in the table. -/
def sboxInverse (b : Byte) : Byte :=
  BitVec.ofNat 8 ((sboxRows.flatten.map BitVec.toNat).findIdx (Nat.beq b.toNat))

/-- A fact about all bytes, from its evaluation on a list of them. -/
theorem forall_byte_of_all {p : Byte → Bool} (h : (List.finRange 256).all (fun n => p (BitVec.ofFin n)) = true)
    (b : Byte) : p b = true :=
  List.all_eq_true.mp h b.toFin (List.mem_finRange _)

theorem sboxInverse_sbox (b : Byte) : sboxInverse (sbox b) = b :=
  eq_of_beq (forall_byte_of_all (p := fun b => sboxInverse (sbox b) == b) (by decide +kernel) b)

theorem sbox_eq_self_iff (b : Byte) : sbox b = b ↔ b = 0xAB#8 :=
  of_decide_eq_true (forall_byte_of_all (p := fun b => decide (sbox b = b ↔ b = 0xAB#8)) (by decide +kernel) b)

/-- Each byte of a word substituted in its own position. -/
def substWord (f : Byte → Byte) (w : Word) : Word :=
  packWord (f (wordByte w 0)) (f (wordByte w 1)) (f (wordByte w 2)) (f (wordByte w 3))

theorem wordByte_substWord (f : Byte → Byte) (w : Word) (j : Fin 4) :
    wordByte (substWord f w) j.val = f (wordByte w j.val) :=
  wordByte_packWord (fun j => f (wordByte w j.val)) j

theorem substWord_substWord {f g : Byte → Byte} (h : ∀ b, g (f b) = b) (w : Word) :
    substWord g (substWord f w) = w := by
  have hbyte (j : Fin 4) : g (wordByte (substWord f w) j.val) = wordByte w j.val := by
    rw [wordByte_substWord, h]
  have h0 : g (wordByte (substWord f w) 0) = wordByte w 0 := hbyte 0
  have h1 : g (wordByte (substWord f w) 1) = wordByte w 1 := hbyte 1
  have h2 : g (wordByte (substWord f w) 2) = wordByte w 2 := hbyte 2
  have h3 : g (wordByte (substWord f w) 3) = wordByte w 3 := hbyte 3
  rw [substWord, h0, h1, h2, h3, packWord_wordByte]

/-- Settles O48: the inverse table inverts the S-box, and byte by byte `tau`; on a finite type that is enough. -/
theorem substitutionIsBijective : Obligations.SubstitutionIsBijective := by
  unfold Obligations.SubstitutionIsBijective
  have hsbox : Function.LeftInverse sboxInverse sbox := sboxInverse_sbox
  have htau : Function.LeftInverse (substWord sboxInverse) tau := substWord_substWord sboxInverse_sbox
  exact ⟨hsbox.injective.bijective_of_finite, sbox_eq_self_iff, htau.injective.bijective_of_finite⟩

/-! ## Blocks -/

theorem cryptWords_true_false (rk : Vector Word 32) (b : Quad) : cryptWords rk true (cryptWords rk false b) = b :=
  cryptWords_not_cryptWords rk false b

theorem cbcDecryptBlocks_cbcEncryptBlocks (rk : Vector Word 32) (chain : Quad) (ps : List Quad) :
    cbcDecryptBlocks rk chain (cbcEncryptBlocks rk chain ps) = ps := by
  induction ps generalizing chain with
  | nil => rfl
  | cons p ps ih => rw [cbcEncryptBlocks, cbcDecryptBlocks, cryptWords_true_false, quadXor_cancel_right, ih]

theorem ecbBlocks_true_false (rk : Vector Word 32) (ps : List Quad) :
    ecbBlocks rk true (ecbBlocks rk false ps) = ps := by
  simp [ecbBlocks, Function.comp_def, cryptWords_true_false]

/-- Settles O44: each block's two transforms cancel, and in CBC its two uses of the chain value. -/
theorem blockSequencesRoundTrip : Obligations.BlockSequencesRoundTrip := by
  unfold Obligations.BlockSequencesRoundTrip
  exact fun rk iv ps => ⟨cbcDecryptBlocks_cbcEncryptBlocks rk iv ps, ecbBlocks_true_false rk ps⟩

/-! ## The known vector -/

/-- The subkeys of the key `0123456789abcdeffedcba9876543210` (95 V20). -/
def vectorSubkeys : Vector Word 32 := #v[
  0xF12186F9#32, 0x41662B61#32, 0x5A6AB19A#32, 0x7BA92077#32, 0x367360F4#32, 0x776A0C61#32, 0xB6BB89B3#32, 0x24763151#32,
  0xA520307C#32, 0xB7584DBD#32, 0xC30753ED#32, 0x7EE55B57#32, 0x6988608C#32, 0x30D895B7#32, 0x44BA14AF#32, 0x104495A1#32,
  0xD120B428#32, 0x73B55FA3#32, 0xCC874966#32, 0x92244439#32, 0xE89E641F#32, 0x98CA015A#32, 0xC7159060#32, 0x99E1FD2E#32,
  0xB79BD80C#32, 0x1D2115B0#32, 0x0E228AEB#32, 0xF1780C81#32, 0x428D3654#32, 0x62293496#32, 0x01CF72E5#32, 0x9124A012#32]

theorem keyExpandWords_vector :
    keyExpandWords ⟨0x01234567#32, 0x89ABCDEF#32, 0xFEDCBA98#32, 0x76543210#32⟩ = vectorSubkeys := by
  decide +kernel

/-- Settles O49: the schedule is evaluated first, then the 32 rounds under its words. -/
theorem knownVector : Obligations.KnownVector := by
  unfold Obligations.KnownVector
  intro k
  have hrk : keyExpandWords k = vectorSubkeys := keyExpandWords_vector
  rw [hrk]
  exact ⟨rfl, rfl, by decide +kernel⟩

end Sys2Proof.Machine
end

section
/-! PROOFS. The host layer's results, unpadding, and the split of a sequence into blocks (spec/45_host_layer.md R180
to R185, R192 to R194). -/

namespace Sys2Proof.Machine

open Sys2Proof

/-! ## Results -/

section
variable {α β : Type}

@[simp] theorem DriverResult.bind_ok (a : α) (f : α → DriverResult β) : (DriverResult.ok a).bind f = f a := rfl

@[simp] theorem DriverResult.bind_error (e : DriverError) (f : α → DriverResult β) :
    (DriverResult.error e).bind f = .error e := rfl

@[simp] theorem DriverResult.map_ok (f : α → β) (a : α) : (DriverResult.ok a).map f = .ok (f a) := rfl

@[simp] theorem DriverResult.map_error (f : α → β) (e : DriverError) : (DriverResult.error e).map f = .error e := rfl

theorem DriverResult.bind_eq_ok_iff {x : DriverResult α} {f : α → DriverResult β} {b : β} :
    x.bind f = .ok b ↔ ∃ a, x = .ok a ∧ f a = .ok b := by
  cases x <;> simp [DriverResult.bind]

theorem DriverResult.map_eq_ok_iff {x : DriverResult α} {f : α → β} {b : β} :
    x.map f = .ok b ↔ ∃ a, x = .ok a ∧ f a = b := by
  cases x <;> simp [DriverResult.map, DriverResult.bind]

end

/-! ## Unpadding -/

theorem unpad_append_last (d : Bytes) (p : Byte) :
    unpad (d ++ [p]) =
      if p.toNat ≤ d.length + 1 then .ok ((d ++ [p]).take (d.length + 1 - p.toNat)) else .refused .unpadOverrun := by
  simp [unpad]

/-- The last byte counts itself and `r`, whatever `r` is (45 R182). -/
theorem unpad_append {d r : Bytes} {p : Byte} (hp : p.toNat = r.length + 1) : unpad (d ++ r ++ [p]) = .ok d := by
  rw [unpad_append_last, if_pos (by simp [hp]), hp]
  simp

theorem unpad_append_zero (d : Bytes) : unpad (d ++ [0#8]) = .ok (d ++ [0#8]) := by
  simp [unpad_append_last]

theorem unpad_overrun {d : Bytes} {p : Byte} (hp : d.length + 1 < p.toNat) :
    unpad (d ++ [p]) = .refused .unpadOverrun := by
  rw [unpad_append_last, if_neg (by omega)]

theorem unpad_pad (m : Bytes) : unpad (pad m) = .ok m := by
  obtain ⟨k, hk⟩ := Nat.exists_eq_add_of_le' (padLength_pos m)
  have hle := padLength_le m
  rw [pad, hk, List.replicate_succ', ← List.append_assoc]
  refine unpad_append ?_
  rw [BitVec.toNat_ofNat, List.length_replicate]
  omega

/-- Settles O54: each clause is `unpad` of a sequence with its last byte split off. -/
theorem unpadDropsByLastByte : Obligations.UnpadDropsByLastByte := by
  unfold Obligations.UnpadDropsByLastByte
  exact ⟨unpad_pad, fun d r p => unpad_append, unpad_append_zero, fun d p => unpad_overrun, rfl⟩

/-! ## Blocks -/

@[simp] theorem length_takeBlocks (n : Nat) (s : Bytes) : (takeBlocks n s).length = n := by
  induction n generalizing s with
  | zero => rfl
  | succ n ih => rw [takeBlocks, List.length_cons, ih]

@[simp] theorem length_splitBlocks (s : Bytes) : (splitBlocks s).length = s.length / 16 := length_takeBlocks _ s

theorem joinBlocks_cons (b : Bytes16) (bs : List Bytes16) : joinBlocks (b :: bs) = b.toList ++ joinBlocks bs := rfl

@[simp] theorem length_joinBlocks (bs : List Bytes16) : (joinBlocks bs).length = 16 * bs.length := by
  induction bs with
  | nil => rfl
  | cons b bs ih =>
    rw [joinBlocks_cons, List.length_append, ih, Vector.length_toList, List.length_cons]
    omega

theorem block16_append (b : Bytes16) (s : Bytes) : block16 (b.toList ++ s) = b := by
  ext i hi : 1
  have hlen : i < b.toList.length := by simpa using hi
  simp [block16, List.getElem?_append_left hlen, hi]

theorem takeBlocks_joinBlocks (bs : List Bytes16) : takeBlocks bs.length (joinBlocks bs) = bs := by
  induction bs with
  | nil => rfl
  | cons b bs ih =>
    have hdrop : (b.toList ++ joinBlocks bs).drop Config.blockBytes = joinBlocks bs :=
      List.drop_left' Vector.length_toList
    rw [joinBlocks_cons, List.length_cons, takeBlocks, block16_append, hdrop, ih]

theorem splitBlocks_joinBlocks (bs : List Bytes16) : splitBlocks (joinBlocks bs) = bs := by
  have hcount : (joinBlocks bs).length / Config.blockBytes = bs.length := by
    rw [length_joinBlocks]
    exact Nat.mul_div_cancel_left _ (by decide)
  rw [splitBlocks, hcount, takeBlocks_joinBlocks]

theorem toList_block16 {s : Bytes} (h : 16 ≤ s.length) : (block16 s).toList = s.take 16 := by
  refine List.ext_getElem (by simp [h]) fun i hi _ => ?_
  have hlt : i < s.length := by simp at hi; omega
  simp [block16, hlt]

theorem joinBlocks_takeBlocks {n : Nat} {s : Bytes} (h : s.length = 16 * n) : joinBlocks (takeBlocks n s) = s := by
  induction n generalizing s with
  | zero => exact (List.length_eq_zero_iff.mp h).symm
  | succ n ih =>
    have hrest : (s.drop Config.blockBytes).length = 16 * n := by
      rw [List.length_drop, h, Config.blockBytes]
      omega
    rw [takeBlocks, joinBlocks_cons, toList_block16 (by omega), ih hrest]
    exact List.take_append_drop 16 s

theorem joinBlocks_splitBlocks {s : Bytes} (h : s.length % 16 = 0) : joinBlocks (splitBlocks s) = s :=
  joinBlocks_takeBlocks (Nat.mul_div_cancel' (Nat.dvd_of_mod_eq_zero h)).symm

/-! ## The checks of a call -/

theorem checkLengths_badKey {c : Call} (hkey : c.key.length ≠ 16) : checkLengths c = .error .invalidKeyLength :=
  if_pos hkey

theorem checkLengths_badIv {c : Call} (hkey : c.key.length = 16) (hmode : c.mode = .cbc) (hiv : c.iv.length ≠ 16) :
    checkLengths c = .error .invalidIVLength :=
  (if_neg (not_not_intro hkey)).trans (if_pos ⟨hmode, hiv⟩)

theorem checkLengths_ok {c : Call} (hkey : c.key.length = 16) (hiv : c.mode = .cbc → c.iv.length = 16) :
    checkLengths c = .ok () :=
  (if_neg (not_not_intro hkey)).trans (if_neg fun h => h.2 (hiv h.1))

theorem blockInput_encrypt {c : Call} (hdir : c.direction = .encrypt) (hpad : c.paddingEnabled = true) :
    blockInput c = .ok (pad c.message) := by
  simp [blockInput, hdir, hpad]

theorem blockInput_decrypt {c : Call} (hdir : c.direction = .decrypt) (hlen : c.message.length % 16 = 0) :
    blockInput c = .ok c.message := by
  simp [blockInput, hdir, Config.blockBytes, hlen]

theorem blockInput_decrypt_bad {c : Call} (hdir : c.direction = .decrypt) (hlen : c.message.length % 16 ≠ 0) :
    blockInput c = .error .invalidCiphertextLength := by
  simp [blockInput, hdir, Config.blockBytes, hlen]

/-- A call that fails its checks has no script and no value (45 R194). -/
theorem call_of_checkLengths_error {c : Call} {e : DriverError} (h : checkLengths c = .error e) :
    callScript c = .error e ∧ callResult c = .error e := by
  simp [callScript, callResult, h]

theorem call_of_blockInput_error {c : Call} {e : DriverError} (hcheck : checkLengths c = .ok ())
    (h : blockInput c = .error e) : callScript c = .error e ∧ callResult c = .error e := by
  simp [callScript, callResult, hcheck, h]

/-- Settles O57: the first failing check is the whole result. -/
theorem driverChecksInOrder : Obligations.DriverChecksInOrder := by
  unfold Obligations.DriverChecksInOrder
  intro c
  exact ⟨fun hkey => call_of_checkLengths_error (checkLengths_badKey hkey),
    fun hkey hmode hiv => call_of_checkLengths_error (checkLengths_badIv hkey hmode hiv),
    fun hkey hiv hdir hlen => call_of_blockInput_error (checkLengths_ok hkey hiv) (blockInput_decrypt_bad hdir hlen)⟩

/-! ## The output of a call -/

@[simp] theorem length_cbcEncryptBlocks (rk : Vector Word 32) (chain : Quad) (bs : List Quad) :
    (cbcEncryptBlocks rk chain bs).length = bs.length := by
  induction bs generalizing chain with
  | nil => rfl
  | cons b bs ih => rw [cbcEncryptBlocks, List.length_cons, ih, List.length_cons]

@[simp] theorem length_cbcDecryptBlocks (rk : Vector Word 32) (chain : Quad) (bs : List Quad) :
    (cbcDecryptBlocks rk chain bs).length = bs.length := by
  induction bs generalizing chain with
  | nil => rfl
  | cons b bs ih => rw [cbcDecryptBlocks, List.length_cons, ih, List.length_cons]

@[simp] theorem length_ecbBlocks (rk : Vector Word 32) (dir : Bool) (bs : List Quad) :
    (ecbBlocks rk dir bs).length = bs.length := List.length_map _

@[simp] theorem length_outputBlocks (c : Call) (bs : List Quad) : (outputBlocks c bs).length = bs.length := by
  unfold outputBlocks
  cases c.mode <;> cases c.direction <;> simp

/-- The bytes of a call's output blocks. -/
def outputBytes (c : Call) (s : Bytes) : Bytes :=
  joinBlocks ((outputBlocks c ((splitBlocks s).map words)).map bytes)

theorem length_outputBytes (c : Call) (s : Bytes) : (outputBytes c s).length = 16 * (s.length / 16) := by
  simp [outputBytes]

theorem callResult_of_blockInput {c : Call} {s : Bytes} (hcheck : checkLengths c = .ok ())
    (hinput : blockInput c = .ok s) : callResult c = finishOutput c (outputBytes c s) := by
  simp [callResult, hcheck, hinput, outputBytes]

/-- An encrypting call with padding that passes the checks. -/
theorem callResult_encrypt {c : Call} (hcheck : checkLengths c = .ok ()) (hdir : c.direction = .encrypt)
    (hpad : c.paddingEnabled = true) : callResult c = .ok (outputBytes c (pad c.message)) := by
  rw [callResult_of_blockInput hcheck (blockInput_encrypt hdir hpad)]
  simp [finishOutput, hdir]

/-- A decrypting call with padding that passes the checks. -/
theorem callResult_decrypt {c : Call} (hcheck : checkLengths c = .ok ()) (hdir : c.direction = .decrypt)
    (hlen : c.message.length % 16 = 0) (hpad : c.paddingEnabled = true) :
    callResult c = unpad (outputBytes c c.message) := by
  rw [callResult_of_blockInput hcheck (blockInput_decrypt hdir hlen)]
  simp [finishOutput, hdir, hpad]

/-- Settles O58: a block comes out for each block of the padded message. -/
theorem ciphertextLength : Obligations.CiphertextLength := by
  unfold Obligations.CiphertextLength
  intro c out hdir hpad hresult
  obtain ⟨_, hcheck, -⟩ := DriverResult.bind_eq_ok_iff.mp hresult
  obtain rfl : outputBytes c (pad c.message) = out := by
    simpa [callResult_encrypt hcheck hdir hpad] using hresult
  rw [length_outputBytes, length_pad_eq_blocks, Nat.mul_div_cancel_left _ (by decide)]

end Sys2Proof.Machine
end

section
/-! PROOFS. The codec layer (spec/45_host_layer.md R195 to R197): decoding undoes encoding, for base64 a group of
characters at a time, for UTF-8 a code point at a time. -/

namespace Sys2Proof.Machine

open Sys2Proof

theorem toNat_byteOf {n : Nat} (h : n < 256) : (byteOf n).toNat = n := by
  rw [byteOf, BitVec.toNat_ofNat]
  exact Nat.mod_eq_of_lt h

/-- A byte from any expression of its value. -/
theorem byteOf_eq {b : Byte} {n : Nat} (h : n = b.toNat) : byteOf n = b := by
  simp [byteOf, h]

/-! ## Base64 -/

@[simp] theorem base64Value_base64Char {v : Nat} (h : v < 64) : base64Value (base64Char v) = some v := by
  have hall : ∀ v < 64, base64Value (base64Char v) = some v := by decide
  exact hall v h

@[simp] theorem base64Value_padChar : base64Value padChar = none := rfl

/-- The groups of three, two and one bytes; the latter two stand last. -/
theorem base64Group_three (last : Bool) (a b c : Byte) :
    base64Group last (base64Char (a.toNat / 4)) (base64Char (a.toNat % 4 * 16 + b.toNat / 16))
      (base64Char (b.toNat % 16 * 4 + c.toNat / 64)) (base64Char (c.toNat % 64)) = some ([a, b, c], true) := by
  have ha := a.isLt
  have hb := b.isLt
  have hc := c.isLt
  have h0 : a.toNat / 4 < 64 := by omega
  have h1 : a.toNat % 4 * 16 + b.toNat / 16 < 64 := by omega
  have h2 : b.toNat % 16 * 4 + c.toNat / 64 < 64 := by omega
  have h3 : c.toNat % 64 < 64 := by omega
  simp only [base64Group, base64Value_base64Char, h0, h1, h2, h3]
  rw [byteOf_eq (b := a) (by omega), byteOf_eq (b := b) (by omega), byteOf_eq (b := c) (by omega)]

theorem base64Group_two (a b : Byte) :
    base64Group true (base64Char (a.toNat / 4)) (base64Char (a.toNat % 4 * 16 + b.toNat / 16))
      (base64Char (b.toNat % 16 * 4)) padChar = some ([a, b], true) := by
  have ha := a.isLt
  have hb := b.isLt
  have h0 : a.toNat / 4 < 64 := by omega
  have h1 : a.toNat % 4 * 16 + b.toNat / 16 < 64 := by omega
  have h2 : b.toNat % 16 * 4 < 64 := by omega
  simp only [base64Group, base64Value_base64Char, base64Value_padChar, h0, h1, h2, if_true]
  rw [byteOf_eq (b := a) (by omega), byteOf_eq (b := b) (by omega), Nat.mul_mod_left]
  rfl

theorem base64Group_one (a : Byte) :
    base64Group true (base64Char (a.toNat / 4)) (base64Char (a.toNat % 4 * 16)) padChar padChar =
      some ([a], true) := by
  have ha := a.isLt
  have h0 : a.toNat / 4 < 64 := by omega
  have h1 : a.toNat % 4 * 16 < 64 := by omega
  simp only [base64Group, base64Value_base64Char, base64Value_padChar, h0, h1, if_true]
  rw [byteOf_eq (b := a) (by omega), Nat.mul_mod_left]
  rfl

theorem base64Groups_base64Encode (b : Bytes) : base64Groups (base64Encode b) = some (b, true) := by
  induction b using base64Encode.induct with
  | case1 => rfl
  | case2 a => simp [base64Encode, base64Groups, base64Group_one]
  | case3 a b => simp [base64Encode, base64Groups, base64Group_two]
  | case4 a b c rest ih => simp [base64Encode, base64Groups, base64Group_three, ih]

theorem length_base64Encode_mod (b : Bytes) : (base64Encode b).length % 4 = 0 := by
  induction b using base64Encode.induct with
  | case1 | case2 | case3 => simp [base64Encode]
  | case4 a b c rest ih =>
    simp only [base64Encode, List.length_cons]
    omega

/-- The characters of the alphabet and `=` (45 R197). -/
def isBase64Char (c : Nat) : Bool := (base64Value c).isSome || c == padChar

theorem isBase64Char_base64Char {v : Nat} (h : v < 64) : isBase64Char (base64Char v) = true := by
  simp [isBase64Char, h]

theorem all_isBase64Char_base64Encode (b : Bytes) : (base64Encode b).all isBase64Char = true := by
  have hpad : isBase64Char padChar = true := rfl
  induction b using base64Encode.induct with
  | case1 => rfl
  | case2 a =>
    have ha := a.isLt
    simp only [base64Encode, List.all_cons, List.all_nil, hpad]
    rw [isBase64Char_base64Char (by omega), isBase64Char_base64Char (by omega)]
    rfl
  | case3 a b =>
    have ha := a.isLt
    have hb := b.isLt
    simp only [base64Encode, List.all_cons, List.all_nil, hpad]
    rw [isBase64Char_base64Char (by omega), isBase64Char_base64Char (by omega), isBase64Char_base64Char (by omega)]
    rfl
  | case4 a b c rest ih =>
    have ha := a.isLt
    have hb := b.isLt
    have hc := c.isLt
    simp only [base64Encode, List.all_cons, ih]
    rw [isBase64Char_base64Char (by omega), isBase64Char_base64Char (by omega), isBase64Char_base64Char (by omega),
      isBase64Char_base64Char (by omega)]
    rfl

theorem base64Decode_of_groups {t : Text} {b : Bytes} (hlen : t.length % 4 = 0) (hchars : t.all isBase64Char = true)
    (hgroups : base64Groups t = some (b, true)) : base64Decode t = .ok b := by
  have hchars' : t.all (fun c => (base64Value c).isSome || c == padChar) = true := hchars
  rw [base64Decode, hlen, hchars', hgroups]
  rfl

theorem base64Decode_base64Encode (b : Bytes) : base64Decode (base64Encode b) = .ok b :=
  base64Decode_of_groups (length_base64Encode_mod b) (all_isBase64Char_base64Encode b) (base64Groups_base64Encode b)

/-- Settles O55: no group of an encoding is misplaced or has discarded bits, so `base64_strict` is not asked. -/
theorem base64RoundTrip : Obligations.Base64RoundTrip := base64Decode_base64Encode

/-! ## UTF-8 -/

theorem toNat_contByte (c sh : Nat) : (contByte c sh).toNat = 0x80 + (c >>> sh) % 64 :=
  toNat_byteOf (by omega)

@[simp] theorem isCont_contByte (c sh : Nat) : isCont (contByte c sh) = true := by
  rw [isCont, toNat_contByte, Bool.and_eq_true, decide_eq_true_iff, decide_eq_true_iff]
  omega

/-- The six payload bits of a continuation byte. -/
theorem toNat_contByte_mod (c sh : Nat) : (contByte c sh).toNat % 64 = c / 2 ^ sh % 64 := by
  rw [toNat_contByte, Nat.shiftRight_eq_div_pow]
  omega

theorem consPoint_of_fits {n c : Nat} (hlen : (utf8EncodePoint c).length = n) (hscalar : isScalar c = true)
    (rest : Option Text) : consPoint n c rest = rest.map (c :: ·) := by
  simp [consPoint, pointFits, hlen, hscalar]

section
variable {c : Nat} (t : Bytes)

/-- The four lengths of a sequence, by the range of its code point (45 R195). -/
theorem utf8DecodePoints_one (h : c ≤ 0x7F) (hscalar : isScalar c = true) :
    utf8DecodePoints (utf8EncodePoint c ++ t) = (utf8DecodePoints t).map (c :: ·) := by
  have hpoint : utf8EncodePoint c = [byteOf c] := if_pos h
  have hlead : (byteOf c).toNat = c := toNat_byteOf (by omega)
  rw [hpoint, List.singleton_append, utf8DecodePoints.eq_def]
  simp only [hlead]
  rw [if_pos (by omega), consPoint_of_fits (by rw [hpoint]; rfl) hscalar]

theorem utf8DecodePoints_two (hlow : 0x7F < c) (h : c ≤ 0x7FF) (hscalar : isScalar c = true) :
    utf8DecodePoints (utf8EncodePoint c ++ t) = (utf8DecodePoints t).map (c :: ·) := by
  have hpoint : utf8EncodePoint c = [byteOf (0xC0 + (c >>> 6)), contByte c 0] := by
    rw [utf8EncodePoint, if_neg (by omega), if_pos h]
  have hlead : (byteOf (0xC0 + (c >>> 6))).toNat = 0xC0 + c / 64 := by
    rw [Nat.shiftRight_eq_div_pow]
    exact toNat_byteOf (by omega)
  have hjoin : joinPoint (0xC0 + c / 64 - 0xC0) [contByte c 0] = c := by
    simp only [joinPoint, List.foldl, toNat_contByte_mod]
    omega
  rw [hpoint]
  simp only [List.cons_append, List.nil_append]
  rw [utf8DecodePoints, hlead, if_neg (by omega), if_neg (by omega), if_pos (by omega)]
  simp only [isCont_contByte, if_true]
  rw [hjoin, consPoint_of_fits (by rw [hpoint]; rfl) hscalar]

theorem utf8DecodePoints_three (hlow : 0x7FF < c) (h : c ≤ 0xFFFF) (hscalar : isScalar c = true) :
    utf8DecodePoints (utf8EncodePoint c ++ t) = (utf8DecodePoints t).map (c :: ·) := by
  have hpoint : utf8EncodePoint c = [byteOf (0xE0 + (c >>> 12)), contByte c 6, contByte c 0] := by
    rw [utf8EncodePoint, if_neg (by omega), if_neg (by omega), if_pos h]
  have hlead : (byteOf (0xE0 + (c >>> 12))).toNat = 0xE0 + c / 4096 := by
    rw [Nat.shiftRight_eq_div_pow]
    exact toNat_byteOf (by omega)
  have hjoin : joinPoint (0xE0 + c / 4096 - 0xE0) [contByte c 6, contByte c 0] = c := by
    simp only [joinPoint, List.foldl, toNat_contByte_mod]
    omega
  rw [hpoint]
  simp only [List.cons_append, List.nil_append]
  rw [utf8DecodePoints, hlead, if_neg (by omega), if_neg (by omega), if_neg (by omega), if_pos (by omega)]
  simp only [isCont_contByte, Bool.and_self, if_true]
  rw [hjoin, consPoint_of_fits (by rw [hpoint]; rfl) hscalar]

theorem utf8DecodePoints_four (hlow : 0xFFFF < c) (h : c ≤ 0x10FFFF) (hscalar : isScalar c = true) :
    utf8DecodePoints (utf8EncodePoint c ++ t) = (utf8DecodePoints t).map (c :: ·) := by
  have hpoint : utf8EncodePoint c = [byteOf (0xF0 + (c >>> 18)), contByte c 12, contByte c 6, contByte c 0] := by
    rw [utf8EncodePoint, if_neg (by omega), if_neg (by omega), if_neg (by omega)]
  have hlead : (byteOf (0xF0 + (c >>> 18))).toNat = 0xF0 + c / 262144 := by
    rw [Nat.shiftRight_eq_div_pow]
    exact toNat_byteOf (by omega)
  have hjoin : joinPoint (0xF0 + c / 262144 - 0xF0) [contByte c 12, contByte c 6, contByte c 0] = c := by
    simp only [joinPoint, List.foldl, toNat_contByte_mod]
    omega
  rw [hpoint]
  simp only [List.cons_append, List.nil_append]
  rw [utf8DecodePoints, hlead, if_neg (by omega), if_neg (by omega), if_neg (by omega), if_neg (by omega),
    if_pos (by omega)]
  simp only [isCont_contByte, Bool.and_self, if_true]
  rw [hjoin, consPoint_of_fits (by rw [hpoint]; rfl) hscalar]

end

theorem utf8DecodePoints_append {c : Nat} (hscalar : isScalar c = true) (t : Bytes) :
    utf8DecodePoints (utf8EncodePoint c ++ t) = (utf8DecodePoints t).map (c :: ·) := by
  have hmax : c ≤ 0x10FFFF := by simp [isScalar] at hscalar; omega
  obtain h1 | h1 := le_or_gt c 0x7F
  · exact utf8DecodePoints_one t h1 hscalar
  obtain h2 | h2 := le_or_gt c 0x7FF
  · exact utf8DecodePoints_two t h1 h2 hscalar
  obtain h3 | h3 := le_or_gt c 0xFFFF
  · exact utf8DecodePoints_three t h2 h3 hscalar
  · exact utf8DecodePoints_four t h3 hmax hscalar

theorem utf8DecodePoints_flatMap {t : Text} (h : t.all isScalar = true) :
    utf8DecodePoints (t.flatMap utf8EncodePoint) = some t := by
  induction t with
  | nil => rfl
  | cons c t ih =>
    obtain ⟨hc, ht⟩ := Bool.and_eq_true_iff.mp (List.all_cons.symm.trans h)
    rw [List.flatMap_cons, utf8DecodePoints_append hc, ih ht]
    rfl

theorem utf8Encode_of_scalars {t : Text} (h : t.all isScalar = true) :
    utf8Encode t = .ok (t.flatMap utf8EncodePoint) := if_pos h

theorem utf8Decode_flatMap {t : Text} (h : t.all isScalar = true) :
    utf8Decode (t.flatMap utf8EncodePoint) = .ok t := by
  rw [utf8Decode, utf8DecodePoints_flatMap h]

/-- Settles O56: every scalar value is encoded, and its sequence decoded, on its own. -/
theorem utf8RoundTrip : Obligations.Utf8RoundTrip := by
  unfold Obligations.Utf8RoundTrip
  exact fun t h => ⟨_, utf8Encode_of_scalars h, utf8Decode_flatMap h⟩

end Sys2Proof.Machine
end

section
/-! PROOFS. The facade (spec/95_test_vectors.md V3): string to bytes, padding, blocks, base64, each undone in turn. -/

namespace Sys2Proof.Machine

open Sys2Proof

/-! ## The blocks of two opposite calls -/

section
variable {c d : Call} (hmode : d.mode = c.mode) (hkey : d.key = c.key) (hiv : d.iv = c.iv)
  (hc : c.direction = .encrypt) (hd : d.direction = .decrypt)
include hmode hkey hiv hc hd

theorem outputBlocks_outputBlocks (bs : List Quad) : outputBlocks d (outputBlocks c bs) = bs := by
  simp only [outputBlocks, hmode, hkey, hiv, hc, hd]
  cases c.mode with
  | ecb => exact ecbBlocks_true_false _ bs
  | cbc => exact cbcDecryptBlocks_cbcEncryptBlocks _ _ bs

theorem outputBytes_outputBytes {s : Bytes} (hlen : s.length % 16 = 0) : outputBytes d (outputBytes c s) = s := by
  have hwords (qs : List Quad) : (qs.map bytes).map words = qs := by simp [Function.comp_def]
  have hbytes (bs : List Bytes16) : (bs.map words).map bytes = bs := by simp [Function.comp_def]
  calc outputBytes d (outputBytes c s)
      = joinBlocks ((outputBlocks d (outputBlocks c ((splitBlocks s).map words))).map bytes) := by
        rw [outputBytes, outputBytes, splitBlocks_joinBlocks, hwords]
    _ = joinBlocks (splitBlocks s) := by
        rw [outputBlocks_outputBlocks hmode hkey hiv hc hd, hbytes]
    _ = s := joinBlocks_splitBlocks hlen

end

/-! ## The facade's calls -/

section
variable {m : Mode} {iv key : Option Bytes}

/-- A key and an IV of 16 bytes, or the defaults, pass the checks. -/
theorem checkLengths_facadeCall (hkey : ∀ k, key = some k → k.length = 16)
    (hiv : m = .cbc → ∀ v, iv = some v → v.length = 16) (dir : Direction) (message : Bytes) :
    checkLengths (facadeCall m dir message iv key) = .ok () := by
  refine checkLengths_ok ?_ fun hmode => ?_
  · cases key with
    | none => rfl
    | some k => exact hkey k rfl
  · cases iv with
    | none => rfl
    | some v => exact hiv hmode v rfl

theorem facadeEncrypt_eq {t : Text} {b out : Bytes} (hutf8 : utf8Encode t = .ok b)
    (hresult : callResult (facadeCall m .encrypt b iv key) = .ok out) :
    facadeEncrypt m t iv key = .ok (base64Encode out) := by
  simp [facadeEncrypt, facadeEncryptCall, hutf8, hresult]

theorem facadeDecrypt_eq {out b : Bytes} (hresult : callResult (facadeCall m .decrypt out iv key) = .ok b) :
    facadeDecrypt m (base64Encode out) iv key = utf8Decode b := by
  simp [facadeDecrypt, facadeDecryptCall, base64Decode_base64Encode, hresult]

end

/-- Settles O52: the decrypting call undoes the encrypting one's blocks and padding, the codecs the rest. -/
theorem facadeRoundTrip : Obligations.FacadeRoundTrip := by
  unfold Obligations.FacadeRoundTrip
  intro m t iv key hscalars hkey hiv
  have hcheck := checkLengths_facadeCall hkey hiv
  let b := t.flatMap utf8EncodePoint
  let out := outputBytes (facadeCall m .encrypt b iv key) (pad b)
  have hpadded : (pad b).length % 16 = 0 := by
    rw [length_pad_eq_blocks]
    exact Nat.mul_mod_right 16 _
  have hout : out.length % 16 = 0 := by
    rw [length_outputBytes]
    exact Nat.mul_mod_right 16 _
  have hencrypt : callResult (facadeCall m .encrypt b iv key) = .ok out := callResult_encrypt (hcheck ..) rfl rfl
  have hblocks : outputBytes (facadeCall m .decrypt out iv key) out = pad b :=
    outputBytes_outputBytes (c := facadeCall m .encrypt b iv key) (d := facadeCall m .decrypt out iv key)
      rfl rfl rfl rfl rfl hpadded
  have hdecrypt : callResult (facadeCall m .decrypt out iv key) = .ok b :=
    (callResult_decrypt (hcheck ..) rfl hout rfl).trans ((congrArg unpad hblocks).trans (unpad_pad b))
  rw [facadeEncrypt_eq (utf8Encode_of_scalars hscalars) hencrypt, DriverResult.bind_ok, facadeDecrypt_eq hdecrypt,
    utf8Decode_flatMap hscalars]

end Sys2Proof.Machine
end

section
/-! PROOFS. Runs of the machine (spec/30_encoding.md R100; spec/70_reset_and_hazards.md R266): what a run of several
steps reaches, and the end of `wait`. The free value that orders host and engine is finite, so a polling host lets a
busy engine take its next step; and every engine step brings the command nearer its end. -/

namespace Sys2Proof.Machine

open Sys2Proof

/-! ## What a run reaches -/

/-- From `s` some number of steps leads to the engine `e` with `pending` still to come, `out` having been read and
no level of `irq` observed. -/
def Reaches (s : State) (e : Engine) (pending : List BusEvent) (out : List Word) : Prop :=
  ∃ (n : Nat) (s' : State), Host.Core.run core n s = .next s' ∧ s'.engine = e ∧ s'.pending = pending ∧
    s'.readLog = s.readLog ++ out ∧ s'.irqLog = s.irqLog

section
variable {M : Host.Core} {s s' : M.State}

theorem run_succ_of_step (h : M.step s = .next s') (n : Nat) : M.run (n + 1) s = M.run n s' := by
  rw [Host.Core.run, h]

theorem run_add_of_run {n : Nat} (h : M.run n s = .next s') (k : Nat) : M.run (n + k) s = M.run k s' := by
  induction n generalizing s with
  | zero =>
    obtain rfl : s = s' := Host.Outcome.next.inj h
    rw [Nat.zero_add]
  | succ n ih =>
    rw [Nat.add_right_comm]
    cases hstep : M.step s with
    | next s₁ =>
      rw [run_succ_of_step hstep] at h ⊢
      exact ih h
    | fault r | refused r =>
      rw [Host.Core.run, hstep] at h
      cases h

end

theorem Reaches.refl (s : State) : Reaches s s.engine s.pending [] :=
  ⟨0, s, rfl, rfl, rfl, (List.append_nil _).symm, rfl⟩

theorem Reaches.trans {s : State} {e₁ e₂ : Engine} {p₁ p₂ : List BusEvent} {out₁ out₂ : List Word}
    (h₁ : Reaches s e₁ p₁ out₁) (h₂ : ∀ s', s'.engine = e₁ → s'.pending = p₁ → Reaches s' e₂ p₂ out₂) :
    Reaches s e₂ p₂ (out₁ ++ out₂) := by
  obtain ⟨n, s₁, hrun₁, he₁, hp₁, hlog₁, hirq₁⟩ := h₁
  obtain ⟨k, s₂, hrun₂, he₂, hp₂, hlog₂, hirq₂⟩ := h₂ s₁ he₁ hp₁
  refine ⟨n + k, s₂, (run_add_of_run hrun₁ k).trans hrun₂, he₂, hp₂, ?_, hirq₂.trans hirq₁⟩
  rw [hlog₂, hlog₁, List.append_assoc]

theorem Reaches.of_step {s s' : State} (hstep : step s = .next s') {out : List Word}
    (hlog : s'.readLog = s.readLog ++ out) (hirq : s'.irqLog = s.irqLog) : Reaches s s'.engine s'.pending out :=
  ⟨1, s', run_succ_of_step (M := core) hstep 0, rfl, rfl, hlog, hirq⟩

/-- A first step that logs nothing. -/
theorem Reaches.after_step {s s₁ : State} {e : Engine} {p : List BusEvent} {out : List Word}
    (hstep : step s = .next s₁) (hlog : s₁.readLog = s.readLog) (hirq : s₁.irqLog = s.irqLog)
    (h : Reaches s₁ e p out) : Reaches s e p out := by
  obtain ⟨n, s₂, hrun, he, hp, hlog₂, hirq₂⟩ := h
  exact ⟨n + 1, s₂, (run_succ_of_step (M := core) hstep n).trans hrun, he, hp, hlog ▸ hlog₂, hirq₂.trans hirq⟩

/-! ## The end of a command -/

/-- The engine when nothing is in progress any more: a busy one after its remaining engine steps. -/
def completed (e : Engine) : Engine := if busy e then engineSteps (32 - e.seq.rnd.val) e else e

theorem completed_of_idle {e : Engine} (h : busy e = false) : completed e = e := by
  simp [completed, h]

theorem completed_of_start {e : Engine} (hbusy : busy e = true) (hrnd : e.seq.rnd = 0) :
    completed e = engineSteps 32 e := by
  simp [completed, hbusy, hrnd]

theorem busy_of_seq_eq_seqIdle {e : Engine} (h : e.seq = seqIdle) : busy e = false := by
  simp [busy, h]

/-- A busy engine's next step leads to the same end, and leaves it idle or a round further. -/
theorem completed_engineStep {e : Engine} (hbusy : busy e = true) : completed (engineStep e) = completed e := by
  obtain ⟨hphase, -, hrnd⟩ | ⟨hrnd, hseq⟩ := engineStep_seq_cases hbusy
  · have hnext : busy (engineStep e) = true := by rw [← hbusy, busy, busy, hphase]
    have hcount : 32 - e.seq.rnd.val = 32 - (e.seq.rnd.val + 1) + 1 := by omega
    rw [completed, completed, if_pos hnext, if_pos hbusy, hrnd, hcount]
    rfl
  · rw [completed_of_idle (busy_of_seq_eq_seqIdle hseq), completed, if_pos hbusy, hrnd]
    rfl

/-- Induction on the rounds that are left: an idle engine, and a busy one from its next step. -/
theorem rounds_induction {motive : Engine → Prop} (idle : ∀ e, busy e = false → motive e)
    (round : ∀ e, busy e = true → motive (engineStep e) → motive e) (e : Engine) : motive e := by
  cases hbusy : busy e with
  | false => exact idle e hbusy
  | true =>
    refine round e hbusy ?_
    obtain ⟨-, -, hrnd⟩ | ⟨-, hseq⟩ := engineStep_seq_cases hbusy
    · exact rounds_induction idle round (engineStep e)
    · exact idle _ (busy_of_seq_eq_seqIdle hseq)
  termination_by 31 - e.seq.rnd.val

theorem busy_completed (e : Engine) : busy (completed e) = false := by
  induction e using rounds_induction with
  | idle e h => rwa [completed_of_idle h]
  | round e h ih => rwa [completed_engineStep h] at ih

/-! ## wait -/

theorem readSlot_status_busy (e : Engine) : (readSlot e .status).getLsbD 0 = busy e := getLsbD_statusWord e 0

theorem busPoll_of_busy {s : State} (h : busy s.engine = true) :
    busPoll s = .next { s with pending := .poll :: s.pending } := by
  rw [busPoll, readSlot_status_busy, if_pos h]

theorem busPoll_of_idle {s : State} (h : busy s.engine = false) : busPoll s = .next s := by
  rw [busPoll, readSlot_status_busy, h]
  rfl

/-- The polls before the next engine step are as many as the free value says; then the engine steps. -/
theorem reaches_engineStep_of_poll {s : State} {rest : List BusEvent} (hbusy : busy s.engine = true)
    (hpending : s.pending = .poll :: rest) : Reaches s (engineStep s.engine) (.poll :: rest) [] := by
  induction hbudget : hostBudget s generalizing s with
  | zero =>
    rw [← hpending]
    exact Reaches.of_step (step_of_engine_turn hbusy (.inr hbudget)) (List.append_nil _).symm rfl
  | succ n ih =>
    have hpoll : performEvent .poll (takeEvent s rest) =
        .next { takeEvent s rest with pending := .poll :: rest } := busPoll_of_busy hbusy
    have hstep := (step_of_event hpending (.inr (by omega))).trans hpoll
    have hdrawn : (takeEvent s rest).budget = some n := by simp [hbusy, hbudget]
    exact Reaches.after_step hstep rfl rfl (ih hbusy rfl (hostBudget_of_drawn hdrawn))

theorem reaches_completed_of_poll {s : State} {rest : List BusEvent} (hpending : s.pending = .poll :: rest) :
    Reaches s (completed s.engine) rest [] := by
  generalize he : s.engine = e
  induction e using rounds_induction generalizing s with
  | idle e hidle =>
    subst he
    have hpoll : performEvent .poll (takeEvent s rest) = .next (takeEvent s rest) := busPoll_of_idle hidle
    rw [completed_of_idle hidle]
    exact Reaches.of_step ((step_of_event hpending (.inl hidle)).trans hpoll) (List.append_nil _).symm rfl
  | round e hbusy ih =>
    subst he
    rw [← completed_engineStep hbusy]
    exact (reaches_engineStep_of_poll hbusy hpending).trans fun s' he' hp => ih hp he'

/-- Settles O50: a run reaches the end of the command with the rest of the script next. -/
theorem waitEnds : Obligations.WaitEnds := by
  unfold Obligations.WaitEnds
  intro s rest hpending
  obtain ⟨n, s', hrun, he, hp, hlog, hirq⟩ := reaches_completed_of_poll hpending
  exact ⟨n, s', hrun, hp, he ▸ busy_completed s.engine, hlog.trans (List.append_nil _), hirq, he⟩

end Sys2Proof.Machine
end

section
/-! PROOFS. Host scripts on an idle engine (spec/30_encoding.md R98 to R101; spec/45_host_layer.md R186 to R191): each
instruction's accesses as a triple of the engine before, the engine after and the words read, composed into the script
of a call. -/

namespace Sys2Proof.Machine

open Sys2Proof

/-! ## Fragments of a script -/

/-- From the engine `e` the accesses `evs` lead to the engine `e'` and read `out`, whatever comes after them. -/
def RunsTo (e : Engine) (evs : List BusEvent) (e' : Engine) (out : List Word) : Prop :=
  ∀ (s : State) (rest : List BusEvent), s.engine = e → s.pending = evs ++ rest → Reaches s e' rest out

theorem RunsTo.nil (e : Engine) : RunsTo e [] e [] := by
  rintro s rest rfl rfl
  exact Reaches.refl s

theorem RunsTo.append {e e₁ e₂ : Engine} {evs₁ evs₂ : List BusEvent} {out₁ out₂ : List Word}
    (h₁ : RunsTo e evs₁ e₁ out₁) (h₂ : RunsTo e₁ evs₂ e₂ out₂) : RunsTo e (evs₁ ++ evs₂) e₂ (out₁ ++ out₂) :=
  fun s rest he hpending =>
    (h₁ s (evs₂ ++ rest) he (hpending.trans (List.append_assoc ..))).trans fun s' he' hp' => h₂ s' rest he' hp'

/-- A fragment that reads nothing, before another. -/
theorem RunsTo.seq {e e₁ e₂ : Engine} {evs₁ evs₂ : List BusEvent} {out : List Word} (h₁ : RunsTo e evs₁ e₁ [])
    (h₂ : RunsTo e₁ evs₂ e₂ out) : RunsTo e (evs₁ ++ evs₂) e₂ out := h₁.append h₂

theorem RunsTo.wait (e : Engine) : RunsTo e [.poll] (completed e) [] := by
  rintro s rest rfl hpending
  exact reaches_completed_of_poll hpending

/-- An idle engine does not move between two accesses. -/
theorem RunsTo.of_event {e e' : Engine} {ev : BusEvent} {out : List Word} (hidle : busy e = false)
    (h : ∀ s : State, s.engine = e →
      performEvent ev s = .next { s with engine := e', readLog := s.readLog ++ out }) : RunsTo e [ev] e' out := by
  rintro s rest rfl hpending
  exact Reaches.of_step ((step_of_event hpending (.inl hidle)).trans (h (takeEvent s rest) rfl)) rfl rfl

theorem State.withEngine_eq_append_nil (s : State) (e : Engine) :
    s.withEngine e = { s with engine := e, readLog := s.readLog ++ [] } := by
  rw [List.append_nil]
  rfl

theorem RunsTo.read {e : Engine} {off : Nat} {slot : Slot} (hidle : busy e = false) (hslot : slotAt off 4 = .ok slot) :
    RunsTo e [.read off 4] e [readSlot e slot] :=
  .of_event hidle fun s he => by
    subst he
    exact busRead_of_slotAt hslot s

theorem RunsTo.write {e : Engine} {off : Nat} {slot : Slot} (hidle : busy e = false)
    (hslot : slotAt off 4 = .ok slot) (hcmd : slot ≠ .cmd) (v : Word) :
    RunsTo e [.write off 4 v] (writeSlot e slot v) [] :=
  .of_event hidle fun s he => by
    subst he
    rw [← State.withEngine_eq_append_nil]
    exact busWrite_of_slotAt hslot hcmd v s

theorem RunsTo.cmd {e : Engine} {i : Instr} (hidle : busy e = false) (hcheck : commandCheck i e = none) :
    RunsTo e [wrEvent .cmd (encode i)] (commandAccept i e) [] :=
  .of_event hidle fun s he => by
    subst he
    rw [← State.withEngine_eq_append_nil]
    exact (performEvent_encode i s).trans ((runsCommand_of_instr i).exec_accepted hidle hcheck)

/-- `cmd` and `wait` together: the whole command. -/
theorem RunsTo.command {e : Engine} {i : Instr} (hidle : busy e = false) (hcheck : commandCheck i e = none) :
    RunsTo e [wrEvent .cmd (encode i), .poll] (completed (commandAccept i e)) [] :=
  (RunsTo.cmd hidle hcheck).seq (RunsTo.wait _)

/-! ## Word groups -/

/-- The engine after the four words of `q` are written to a group of slots, in index order (30 R99). -/
def writeGroup (slot : Fin 4 → Slot) (e : Engine) (q : Quad) : Engine :=
  writeSlot (writeSlot (writeSlot (writeSlot e (slot 0) q.w0) (slot 1) q.w1) (slot 2) q.w2) (slot 3) q.w3

theorem busy_writeSlot (e : Engine) (slot : Slot) (v : Word) : busy (writeSlot e slot v) = busy e := by
  cases slot <;> rfl

theorem RunsTo.group {e : Engine} (r : Fin 4 → RegName) (slot : Fin 4 → Slot) (hidle : busy e = false)
    (hslot : ∀ i, slotAt (regOffset (r i)) 4 = .ok (slot i)) (hcmd : ∀ i, slot i ≠ .cmd) (q : Quad) :
    RunsTo e (wrGroup r q) (writeGroup slot e q) [] := by
  have hwrite {e' : Engine} (hidle' : busy e' = false) (i : Fin 4) (v : Word) :
      RunsTo e' [wrEvent (r i) v] (writeSlot e' (slot i) v) [] := .write hidle' (hslot i) (hcmd i) v
  refine (hwrite hidle 0 q.w0).seq ((hwrite ?_ 1 q.w1).seq ((hwrite ?_ 2 q.w2).seq (hwrite ?_ 3 q.w3)))
  all_goals simpa only [busy_writeSlot] using hidle

/-- Four writes fill a group's mask. -/
theorem maskSet_all (m : BitVec 4) : maskSet (maskSet (maskSet (maskSet m 0) 1) 2) 3 = 0b1111#4 := by
  revert m
  decide

theorem writeGroup_key (e : Engine) (q : Quad) :
    writeGroup .key e q = { e with key := q, keyw := 0b1111#4 } := by
  rw [← maskSet_all e.keyw]
  rfl

theorem writeGroup_iv (e : Engine) (q : Quad) : writeGroup .iv e q = { e with iv := q, ivw := 0b1111#4 } := by
  rw [← maskSet_all e.ivw]
  rfl

theorem writeGroup_din (e : Engine) (q : Quad) : writeGroup .din e q = { e with din := q, dinw := 0b1111#4 } := by
  rw [← maskSet_all e.dinw]
  rfl

section
variable {e : Engine} (hidle : busy e = false) (q : Quad)
include hidle

theorem RunsTo.wkey : RunsTo e (wrGroup .key q) { e with key := q, keyw := 0b1111#4 } [] := by
  rw [← writeGroup_key]
  exact .group .key .key hidle slotAt_key nofun q

theorem RunsTo.wiv : RunsTo e (wrGroup .iv q) { e with iv := q, ivw := 0b1111#4 } [] := by
  rw [← writeGroup_iv]
  exact .group .iv .iv hidle slotAt_iv nofun q

theorem RunsTo.wdin : RunsTo e (wrGroup .din q) { e with din := q, dinw := 0b1111#4 } [] := by
  rw [← writeGroup_din]
  exact .group .din .din hidle slotAt_din nofun q

end

/-- The words of a vector, in index order. -/
def quadWords (q : Quad) : List Word := [q.w0, q.w1, q.w2, q.w3]

theorem RunsTo.rdout {e : Engine} (hidle : busy e = false) : RunsTo e (expandInstr .rdout) e (quadWords e.dout) :=
  have hread (i : Fin 4) : RunsTo e [rdEvent (.dout i)] e [quadGet e.dout i] := .read hidle (slotAt_dout i)
  (hread 0).append ((hread 1).append ((hread 2).append (hread 3)))

/-! ## Key set-up and chain start -/

/-- An idle engine that holds the schedule `rk` (45 R190). -/
structure HoldsSchedule (rk : Vector Word 32) (e : Engine) : Prop where
  idle : busy e = false
  keyed : e.keyValid = true
  schedule : e.rk = rk

theorem completed_acceptKeyexp (e : Engine) :
    completed (acceptKeyexp e) =
      { acceptKeyexp e with
        rk := keyExpandWords e.key, x := quadZero, seq := seqIdle, keyValid := true, done := true } :=
  (completed_of_start rfl rfl).trans (engineSteps_acceptKeyexp_all e)

theorem runsTo_scriptKeySetUp {e : Engine} (hidle : busy e = false) (k : Bytes16) :
    ∃ e', RunsTo e (expandScript (scriptKeySetUp k)) e' [] ∧ HoldsSchedule (keyExpand k) e' := by
  let keyed : Engine := { e with key := words k, keyw := 0b1111#4 }
  have hwrite : RunsTo e (wrGroup .key (words k)) keyed [] := RunsTo.wkey hidle (words k)
  have hcommand : RunsTo keyed _ (completed (acceptKeyexp keyed)) [] := RunsTo.command (i := .keyexp) hidle rfl
  refine ⟨_, hwrite.seq hcommand, ?_⟩
  rw [completed_acceptKeyexp]
  exact ⟨rfl, rfl, rfl⟩

/-- An engine ready for the blocks of a call: in CBC it holds the chain value too. -/
structure ReadyFor (m : Mode) (rk : Vector Word 32) (chain : Quad) (e : Engine) : Prop extends HoldsSchedule rk e where
  chained : m = .cbc → e.ivValid = true ∧ e.chain = chain

theorem runsTo_scriptChainStart {e : Engine} {rk : Vector Word 32} (h : HoldsSchedule rk e) (iv : Bytes16) :
    ∃ e', RunsTo e (expandScript (scriptChainStart iv)) e' [] ∧ ReadyFor .cbc rk (words iv) e' := by
  let staged : Engine := { e with iv := words iv, ivw := 0b1111#4 }
  have hwrite : RunsTo e (wrGroup .iv (words iv)) staged [] := RunsTo.wiv h.idle (words iv)
  have hcommand : RunsTo staged _ (acceptIvload staged) [] := RunsTo.cmd (i := .ivload) h.idle rfl
  exact ⟨_, hwrite.seq hcommand, ⟨h.idle, h.keyed, h.schedule⟩, fun _ => ⟨rfl, rfl⟩⟩

/-! ## Blocks -/

/-- What one block of a call gives: the output block and the next chain value (43 R156). -/
def blockResult (m : Mode) (d : Direction) (rk : Vector Word 32) (chain b : Quad) : Quad × Quad :=
  match m, d with
  | .ecb, .encrypt => (cryptWords rk false b, chain)
  | .ecb, .decrypt => (cryptWords rk true b, chain)
  | .cbc, .encrypt => (cryptWords rk false (quadXor b chain), cryptWords rk false (quadXor b chain))
  | .cbc, .decrypt => (quadXor (cryptWords rk true b) chain, b)

/-- The output blocks of a call, one after another. -/
def blockResults (m : Mode) (d : Direction) (rk : Vector Word 32) : Quad → List Quad → List Quad
  | _, [] => []
  | chain, b :: bs => (blockResult m d rk chain b).1 :: blockResults m d rk (blockResult m d rk chain b).2 bs

theorem blockResults_ecb_encrypt (rk : Vector Word 32) (chain : Quad) (bs : List Quad) :
    blockResults .ecb .encrypt rk chain bs = ecbBlocks rk false bs := by
  induction bs with
  | nil => rfl
  | cons b bs ih => exact congrArg (cryptWords rk false b :: ·) ih

theorem blockResults_ecb_decrypt (rk : Vector Word 32) (chain : Quad) (bs : List Quad) :
    blockResults .ecb .decrypt rk chain bs = ecbBlocks rk true bs := by
  induction bs with
  | nil => rfl
  | cons b bs ih => exact congrArg (cryptWords rk true b :: ·) ih

theorem blockResults_cbc_encrypt (rk : Vector Word 32) (chain : Quad) (bs : List Quad) :
    blockResults .cbc .encrypt rk chain bs = cbcEncryptBlocks rk chain bs := by
  induction bs generalizing chain with
  | nil => rfl
  | cons b bs ih => rw [blockResults, ih]; rfl

theorem blockResults_cbc_decrypt (rk : Vector Word 32) (chain : Quad) (bs : List Quad) :
    blockResults .cbc .decrypt rk chain bs = cbcDecryptBlocks rk chain bs := by
  induction bs generalizing chain with
  | nil => rfl
  | cons b bs ih => rw [blockResults, ih]; rfl

theorem blockResults_eq_outputBlocks (c : Call) (bs : List Quad) :
    blockResults c.mode c.direction (keyExpand (block16 c.key)) (words (block16 c.iv)) bs = outputBlocks c bs := by
  unfold outputBlocks
  cases c.mode <;> cases c.direction
  · exact blockResults_ecb_encrypt ..
  · exact blockResults_ecb_decrypt ..
  · exact blockResults_cbc_encrypt ..
  · exact blockResults_cbc_decrypt ..

/-- A block command after its 32 rounds (42 R142). -/
theorem completed_acceptBlock (op : BitVec 2) (q c : Quad) (e : Engine) :
    completed (acceptBlock op q c e) = cryptDone op q c e (cryptWords e.rk (opDir op) q) :=
  (completed_of_start rfl rfl).trans (engineSteps_acceptBlock_all op q c e)

section
variable {m : Mode} {rk : Vector Word 32} {chain : Quad} {e : Engine}

theorem ReadyFor.blockCheck_eq_none (h : ReadyFor m rk chain e) (hdin : e.dinw = 0b1111#4) (d : Direction) :
    commandCheck (blockCommand m d) e = none := by
  have hecb : blockCheck false e = none := (blockCheck_eq_none_iff ..).mpr ⟨h.keyed, nofun, hdin⟩
  have hcbc (hm : m = .cbc) : blockCheck true e = none :=
    (blockCheck_eq_none_iff ..).mpr ⟨h.keyed, fun _ => (h.chained hm).1, hdin⟩
  cases m <;> cases d
  exacts [hecb, hecb, hcbc rfl, hcbc rfl]

/-- A block command, from acceptance to its end: the output of its mode and direction, and an engine ready for the next
block. -/
theorem ReadyFor.completed_blockCommand (h : ReadyFor m rk chain e) (d : Direction) :
    (completed (commandAccept (blockCommand m d) e)).dout = (blockResult m d rk chain e.din).1 ∧
    ReadyFor m rk (blockResult m d rk chain e.din).2 (completed (commandAccept (blockCommand m d) e)) := by
  obtain ⟨⟨-, hkeyed, rfl⟩, hchained⟩ := h
  have hend (op : BitVec 2) (q c : Quad) (hi : commandAccept (blockCommand m d) e = acceptBlock op q c e) :
      completed (commandAccept (blockCommand m d) e) = cryptDone op q c e (cryptWords e.rk (opDir op) q) :=
    hi ▸ completed_acceptBlock op q c e
  cases m with
  | ecb =>
    cases d with
    | encrypt =>
      rw [hend 0b00#2 e.din e.csave rfl]
      exact ⟨rfl, ⟨rfl, hkeyed, rfl⟩, nofun⟩
    | decrypt =>
      rw [hend 0b01#2 e.din e.csave rfl]
      exact ⟨rfl, ⟨rfl, hkeyed, rfl⟩, nofun⟩
  | cbc =>
    obtain ⟨hiv, rfl⟩ := hchained rfl
    cases d with
    | encrypt =>
      rw [hend 0b10#2 (quadXor e.din e.chain) e.csave rfl]
      exact ⟨rfl, ⟨rfl, hkeyed, rfl⟩, fun _ => ⟨hiv, rfl⟩⟩
    | decrypt =>
      rw [hend 0b11#2 e.din e.din rfl]
      exact ⟨rfl, ⟨rfl, hkeyed, rfl⟩, fun _ => ⟨hiv, rfl⟩⟩

theorem ReadyFor.runsTo_scriptBlock (h : ReadyFor m rk chain e) (d : Direction) (b : Bytes16) :
    ∃ e', RunsTo e (expandScript (scriptBlock (blockCommand m d) b)) e'
        (quadWords (blockResult m d rk chain (words b)).1) ∧
      ReadyFor m rk (blockResult m d rk chain (words b)).2 e' := by
  let staged : Engine := { e with din := words b, dinw := 0b1111#4 }
  have hstaged : ReadyFor m rk chain staged := ⟨⟨h.idle, h.keyed, h.schedule⟩, h.chained⟩
  have hwrite : RunsTo e (wrGroup .din (words b)) staged [] := RunsTo.wdin h.idle (words b)
  have hcommand := RunsTo.command hstaged.idle (hstaged.blockCheck_eq_none rfl d)
  obtain ⟨hdout, hready⟩ := hstaged.completed_blockCommand d
  exact ⟨_, hdout ▸ hwrite.seq (hcommand.seq (RunsTo.rdout hready.idle)), hready⟩

theorem expandScript_append (sc₁ sc₂ : List ScriptInstr) :
    expandScript (sc₁ ++ sc₂) = expandScript sc₁ ++ expandScript sc₂ := List.flatMap_append

theorem ReadyFor.runsTo_blocks (h : ReadyFor m rk chain e) (d : Direction) (bs : List Bytes16) :
    ∃ e', RunsTo e (expandScript (bs.flatMap (scriptBlock (blockCommand m d)))) e'
        ((blockResults m d rk chain (bs.map words)).flatMap quadWords) ∧ HoldsSchedule rk e' := by
  induction bs generalizing e chain with
  | nil => exact ⟨e, RunsTo.nil e, h.toHoldsSchedule⟩
  | cons b bs ih =>
    obtain ⟨e₁, hblock, hready⟩ := h.runsTo_scriptBlock d b
    obtain ⟨e₂, hblocks, hholds⟩ := ih hready
    refine ⟨e₂, ?_, hholds⟩
    rw [List.flatMap_cons, expandScript_append]
    exact hblock.append hblocks

end

/-! ## The script of a call -/

/-- The script of a call after its key set-up: IV set-up in CBC, then every block in order. -/
def scriptAfterKey (c : Call) (s : Bytes) : List ScriptInstr :=
  (if c.mode = .cbc then scriptChainStart (block16 c.iv) else []) ++
    (splitBlocks s).flatMap (scriptBlock (blockCommand c.mode c.direction))

theorem callScript_eq_ok {c : Call} {sc : List ScriptInstr} (h : callScript c = .ok sc) :
    ∃ s, checkLengths c = .ok () ∧ blockInput c = .ok s ∧
      sc = (if c.scheduleReady then [] else scriptKeySetUp (block16 c.key)) ++ scriptAfterKey c s := by
  obtain ⟨_, hcheck, h⟩ := DriverResult.bind_eq_ok_iff.mp h
  obtain ⟨s, hinput, rfl⟩ := DriverResult.map_eq_ok_iff.mp h
  exact ⟨s, hcheck, hinput, List.append_assoc ..⟩

theorem HoldsSchedule.runsTo_scriptAfterKey {c : Call} {e : Engine}
    (h : HoldsSchedule (keyExpand (block16 c.key)) e) (s : Bytes) :
    ∃ e', RunsTo e (expandScript (scriptAfterKey c s)) e'
        ((outputBlocks c ((splitBlocks s).map words)).flatMap quadWords) ∧
      HoldsSchedule (keyExpand (block16 c.key)) e' := by
  rw [← blockResults_eq_outputBlocks, scriptAfterKey]
  cases hmode : c.mode with
  | ecb =>
    have hready : ReadyFor .ecb (keyExpand (block16 c.key)) (words (block16 c.iv)) e := ⟨h, nofun⟩
    exact hready.runsTo_blocks c.direction (splitBlocks s)
  | cbc =>
    obtain ⟨e₁, hchain, hready⟩ := runsTo_scriptChainStart h (block16 c.iv)
    obtain ⟨e₂, hblocks, hholds⟩ := hready.runsTo_blocks c.direction (splitBlocks s)
    rw [if_pos rfl, expandScript_append]
    exact ⟨e₂, hchain.seq hblocks, hholds⟩

/-! ## The value of a call -/

theorem logBytes_append (ws₁ ws₂ : List Word) : logBytes (ws₁ ++ ws₂) = logBytes ws₁ ++ logBytes ws₂ :=
  List.flatMap_append

theorem logBytes_quadWords (q : Quad) : logBytes (quadWords q) = (bytes q).toList := rfl

/-- The words read block by block are the output blocks' bytes. -/
theorem logBytes_flatMap_quadWords (qs : List Quad) : logBytes (qs.flatMap quadWords) = joinBlocks (qs.map bytes) := by
  induction qs with
  | nil => rfl
  | cons q qs ih => rw [List.flatMap_cons, logBytes_append, logBytes_quadWords, ih]; rfl

theorem finishCall_eq_callResult {c : Call} {s : Bytes} (hcheck : checkLengths c = .ok ())
    (hinput : blockInput c = .ok s) :
    finishCall c ((outputBlocks c ((splitBlocks s).map words)).flatMap quadWords) = callResult c := by
  rw [callResult_of_blockInput hcheck hinput, finishCall, logBytes_flatMap_quadWords, outputBytes]

/-- A script handed to a host with nothing pending runs to its end. -/
theorem RunsTo.run_submit {e : Engine} {sc : List ScriptInstr} {out : List Word} {s : State} (hpending : s.pending = [])
    (h : RunsTo s.engine (expandScript sc) e out) :
    ∃ (n : Nat) (s' : State), Host.Core.run core n (s.submit sc) = .next s' ∧ s'.engine = e ∧ s'.pending = [] ∧
      s'.readLog = s.readLog ++ out := by
  have hsubmitted : (s.submit sc).pending = expandScript sc ++ [] := by simp [State.submit, hpending]
  obtain ⟨n, s', hrun, he, hp, hlog, -⟩ := h (s.submit sc) [] rfl hsubmitted
  exact ⟨n, s', hrun, he, hp, hlog⟩

/-- Settles O51: the key set-up leaves an engine that holds the key's schedule; the rest of the script runs from there,
and its reads are the call's output blocks. -/
theorem driverComputesTheMessage : Obligations.DriverComputesTheMessage := by
  unfold Obligations.DriverComputesTheMessage
  intro c sc s hidle hpending hready hscript
  obtain ⟨input, hcheck, hinput, rfl⟩ := callScript_eq_ok hscript
  obtain ⟨e₁, hsetup, hholds⟩ := runsTo_scriptKeySetUp hidle (block16 c.key)
  obtain ⟨e₂, hrest, hdone⟩ := hholds.runsTo_scriptAfterKey input
  have hall := hsetup.seq hrest
  rw [← expandScript_append] at hall
  obtain ⟨n, s', hrun, rfl, hp, hlog⟩ := hall.run_submit hpending
  rw [hready]
  exact ⟨n, s', _, hrun, hp, hdone.idle, hlog, finishCall_eq_callResult hcheck hinput⟩

/-- Settles O59: the engine holds the key's schedule already, and the script keeps it. -/
theorem driverReusesReadySchedule : Obligations.DriverReusesReadySchedule := by
  unfold Obligations.DriverReusesReadySchedule
  intro c sc s hidle hpending hready hkeyed hrk hscript
  obtain ⟨input, hcheck, hinput, rfl⟩ := callScript_eq_ok hscript
  have hholds : HoldsSchedule (keyExpand (block16 c.key)) s.engine := ⟨hidle, hkeyed, hrk⟩
  obtain ⟨e, hrest, hdone⟩ := hholds.runsTo_scriptAfterKey input
  obtain ⟨n, s', hrun, rfl, hp, hlog⟩ := hrest.run_submit hpending
  rw [hready]
  exact ⟨n, s', _, hrun, hp, hdone.idle, hdone.keyed, hdone.schedule.trans hrk.symm, hlog,
    finishCall_eq_callResult hcheck hinput⟩

end Sys2Proof.Machine
end
